-- ==== Sys2Proof/Word.lean ====
section
/-! DEFINITION. The bit widths of the block and the two one-bit vocabularies of its operands (R9, R10, R116). -/

namespace Sys2Proof

/-- One register word, one command word: WORD = 32 bits (00_scope section 5, R66, R90). -/
abbrev Word := BitVec 32

/-- One LCD byte, one character code, one fault code (R37, R95, R117). -/
abbrev Byte := BitVec 8

/-- Half a byte, what one strobe moves to the display (R113). -/
abbrev Nibble := BitVec 4

/-- A valid pin index, `0 .. N_PINS-1` with N_PINS = 32 (00_scope section 5). -/
abbrev Pin := Fin 32

/-- A level of a pin: LOW = 0, HIGH = 1 (00_scope section 6.1, R116). -/
inductive Level where
  | low
  | high
deriving DecidableEq, Repr, Inhabited

/-- A direction operand: INPUT = 0, OUTPUT = 1 (R116). -/
inductive Direction where
  | input
  | output
deriving DecidableEq, Repr, Inhabited

end Sys2Proof
end

