-- ==== Sys2Proof/Syntax.lean ====
section
/-! DEFINITION. The command set: one constructor per row of the opcode map (R100). Numeric operands are natural numbers, as the
spec's are (R9 section 6.4, R99); the width a field gives them is checked in WellFormed. -/

namespace Sys2Proof

inductive Instr where
  /-- ACQUIRE, format N (R130). -/
  | acquire
  /-- RELEASE, format N (R140). -/
  | release
  /-- SET_MODE pin, dir, format P (R131). -/
  | setMode (pin : Nat) (dir : Direction)
  /-- WRITE pin, level, format P (R135). -/
  | write (pin : Nat) (level : Level)
  /-- READ pin, format R (R138). -/
  | read (pin : Nat)
  /-- LCD_INIT, format N (R160). -/
  | lcdInit
  /-- LCD_CMD byte, format B (R162). -/
  | lcdCmd (byte : Byte)
  /-- PUT_CHAR byte, format B (R163). -/
  | putChar (byte : Byte)
  /-- POSITION x, y, format XY: column, row (R164). -/
  | position (x : Nat) (y : Nat)
  /-- LCD_CLEAR, format N (R165). -/
  | lcdClear
  /-- LCD_DISPLAY v, format V (R166). -/
  | lcdDisplay (on : Bool)
  /-- LCD_CURSOR v, format V (R167). -/
  | lcdCursor (on : Bool)
  /-- LCD_BLINK v, format V (R168). -/
  | lcdBlink (on : Bool)
  /-- WAIT_INPUT, format N (R195). -/
  | waitInput
  /-- DELAY n, format D (R201). -/
  | delay (n : Nat)
deriving DecidableEq, Repr

end Sys2Proof
end

