-- ==== Sys2Proof/WellFormed.lean ====
section
/-! DEFINITION. Which terms of `Instr` a command word can carry: every numeric operand fits its field (R93 to R98). -/

namespace Sys2Proof

/-- `pin`, `x` and `y` are 8-bit fields (R93, R94, R96), `n` is a 24-bit field (R98); the other operands fit by their type.
A pin of 32 to 255 is well formed on purpose: it can be written down and is then refused by value (R93, R103). -/
def Instr.wellFormed : Instr → Bool
  | .acquire => true
  | .release => true
  | .setMode pin _ => decide (pin < 256)
  | .write pin _ => decide (pin < 256)
  | .read pin => decide (pin < 256)
  | .lcdInit => true
  | .lcdCmd _ => true
  | .putChar _ => true
  | .position x y => decide (x < 256) && decide (y < 256)
  | .lcdClear => true
  | .lcdDisplay _ => true
  | .lcdCursor _ => true
  | .lcdBlink _ => true
  | .waitInput => true
  | .delay n => decide (n < 2 ^ 24)

end Sys2Proof
end

