-- ==== Sys2Proof/Decode.lean ====
section
/-! DEFINITION. The decoder of command words (R90 to R103), total on all 32-bit words, and the encoder written from the same
formats. -/

namespace Sys2Proof

/-- The unsigned number in `width` bits of `w` from bit `lo` up: `w[lo+width-1 : lo]` (R9 section 6.1, R99). -/
def bitField (w : Word) (lo width : Nat) : Nat := w.toNat / 2 ^ lo % 2 ^ width

/-- A one-bit operand as a level (R93, R116). -/
def levelOfNat (n : Nat) : Level := if n = 0 then .low else .high

/-- A one-bit operand as a direction (R93, R116). -/
def directionOfNat (n : Nat) : Direction := if n = 0 then .input else .output

/-- A level as the number of its bit (R116). -/
def levelNat : Level → Nat
  | .low => 0
  | .high => 1

/-- A direction as the number of its bit (R116). -/
def directionNat : Direction → Nat
  | .input => 0
  | .output => 1

/-- An on/off operand as the number of its bit (R97). -/
def boolNat (b : Bool) : Nat := if b then 1 else 0

/-- Why a word is no command (R102). -/
inductive Reserved where
  /-- The opcode is not one of the 15 of R100. -/
  | unassignedOpcode (opcode : Nat)
  /-- The opcode is listed and a bit its format does not assign is set (R91). -/
  | mustBeZero (opcode : Nat)
deriving DecidableEq, Repr

/-- What decoding a word gives: exactly one command, or a reserved word (R101). -/
inductive Decoded where
  | command (i : Instr)
  | reserved (r : Reserved)
deriving DecidableEq, Repr

/-- A word of opcode `op` whose unassigned bits, `used` and up to 23, must be zero: the command if they are (R91, R101). -/
def checked (w : Word) (op used : Nat) (i : Instr) : Decoded :=
  if bitField w used (24 - used) = 0 then .command i else .reserved (.mustBeZero op)

/-- Decoding (R101): the opcode selects the row, the row's format says which bits must be zero and where the fields are. -/
def decode (w : Word) : Decoded :=
  match bitField w 24 8 with
  | 0x01 => checked w 0x01 0 .acquire
  | 0x02 => checked w 0x02 0 .release
  | 0x10 => checked w 0x10 9 (.setMode (bitField w 0 8) (directionOfNat (bitField w 8 1)))
  | 0x11 => checked w 0x11 9 (.write (bitField w 0 8) (levelOfNat (bitField w 8 1)))
  | 0x12 => checked w 0x12 8 (.read (bitField w 0 8))
  | 0x20 => checked w 0x20 0 .lcdInit
  | 0x21 => checked w 0x21 8 (.lcdCmd (BitVec.ofNat 8 (bitField w 0 8)))
  | 0x22 => checked w 0x22 8 (.putChar (BitVec.ofNat 8 (bitField w 0 8)))
  | 0x23 => checked w 0x23 16 (.position (bitField w 0 8) (bitField w 8 8))
  | 0x24 => checked w 0x24 0 .lcdClear
  | 0x25 => checked w 0x25 1 (.lcdDisplay (decide (bitField w 0 1 = 1)))
  | 0x26 => checked w 0x26 1 (.lcdCursor (decide (bitField w 0 1 = 1)))
  | 0x27 => checked w 0x27 1 (.lcdBlink (decide (bitField w 0 1 = 1)))
  | 0x30 => checked w 0x30 0 .waitInput
  | 0x40 => checked w 0x40 24 (.delay (bitField w 0 24))
  | op => .reserved (.unassignedOpcode op)

/-- A command word from its opcode and its operand bits `[23:0]` (R91). -/
def wordOf (op operand : Nat) : Word := BitVec.ofNat 32 (op * 2 ^ 24 + operand)

/-- The word of a well-formed command, from the formats of R92 to R98 and the opcodes of R100. -/
def encode : Instr → Word
  | .acquire => wordOf 0x01 0
  | .release => wordOf 0x02 0
  | .setMode pin dir => wordOf 0x10 (directionNat dir * 2 ^ 8 + pin)
  | .write pin level => wordOf 0x11 (levelNat level * 2 ^ 8 + pin)
  | .read pin => wordOf 0x12 pin
  | .lcdInit => wordOf 0x20 0
  | .lcdCmd b => wordOf 0x21 b.toNat
  | .putChar b => wordOf 0x22 b.toNat
  | .position x y => wordOf 0x23 (y * 2 ^ 8 + x)
  | .lcdClear => wordOf 0x24 0
  | .lcdDisplay on => wordOf 0x25 (boolNat on)
  | .lcdCursor on => wordOf 0x26 (boolNat on)
  | .lcdBlink on => wordOf 0x27 (boolNat on)
  | .waitInput => wordOf 0x30 0
  | .delay n => wordOf 0x40 n

/-- The match and mask columns of R100, row by row: a word `w` is the command of a row when `w & mask = match`. -/
def opcodeRows : List (Word × Word) :=
  [(0x01000000, 0xFFFFFFFF), (0x02000000, 0xFFFFFFFF), (0x10000000, 0xFFFFFE00), (0x11000000, 0xFFFFFE00),
   (0x12000000, 0xFFFFFF00), (0x20000000, 0xFFFFFFFF), (0x21000000, 0xFFFFFF00), (0x22000000, 0xFFFFFF00),
   (0x23000000, 0xFFFF0000), (0x24000000, 0xFFFFFFFF), (0x25000000, 0xFFFFFFFE), (0x26000000, 0xFFFFFFFE),
   (0x27000000, 0xFFFFFFFE), (0x30000000, 0xFFFFFFFF), (0x40000000, 0xFF000000)]

/-- The row of `opcodeRows` a command belongs to (R100). -/
def rowOf : Instr → Word × Word
  | .acquire => (0x01000000, 0xFFFFFFFF)
  | .release => (0x02000000, 0xFFFFFFFF)
  | .setMode _ _ => (0x10000000, 0xFFFFFE00)
  | .write _ _ => (0x11000000, 0xFFFFFE00)
  | .read _ => (0x12000000, 0xFFFFFF00)
  | .lcdInit => (0x20000000, 0xFFFFFFFF)
  | .lcdCmd _ => (0x21000000, 0xFFFFFF00)
  | .putChar _ => (0x22000000, 0xFFFFFF00)
  | .position _ _ => (0x23000000, 0xFFFF0000)
  | .lcdClear => (0x24000000, 0xFFFFFFFF)
  | .lcdDisplay _ => (0x25000000, 0xFFFFFFFE)
  | .lcdCursor _ => (0x26000000, 0xFFFFFFFE)
  | .lcdBlink _ => (0x27000000, 0xFFFFFFFE)
  | .waitInput => (0x30000000, 0xFFFFFFFF)
  | .delay _ => (0x40000000, 0xFF000000)

/-- `w` is the command of the row (R100). -/
def matchesRow (w : Word) (row : Word × Word) : Bool := decide (w &&& row.2 = row.1)

/-- A command word whose low `nbits` bits are `w` and whose other bits are 0. -/
def tableWord (nbits w : Nat) : Word := BitVec.ofNat 32 (w % 2 ^ nbits)

/-- The command the decoder reads from an opcode-table word; `none` for a reserved word. -/
def decodeTableWord (nbits w : Nat) : Option Instr :=
  match decode (tableWord nbits w) with
  | .command i => some i
  | .reserved _ => none

end Sys2Proof
end

