-- ==== Sys2Proof/Config.lean ====
section
/-! DEFINITION. What a deployment fixes (the configuration record of R7) and the free values of the environment (R190, U13).
The record is a parameter of the step relation (`stepUnder`) and comes with a state in `State.cfg` (log 4): every statement is for every
configuration. -/

namespace Sys2Proof

/-- The parameters of 00_scope section 5 that a deployment fixes. -/
structure Cfg where
  /-- LCD_BITS, the bus width asked for; only 4 is supported (R3, R158). -/
  lcdBits : Nat
  /-- LCD_COLS. -/
  lcdCols : Nat
  /-- LCD_ROWS. -/
  lcdRows : Nat
  /-- PIN_RS, the register-select line. -/
  pinRs : Pin
  /-- PIN_STRB, the strobe line. -/
  pinStrb : Pin
  /-- PIN_D[0], carries bit 0 of a nibble (R113). -/
  pinD0 : Pin
  /-- PIN_D[1]. -/
  pinD1 : Pin
  /-- PIN_D[2]. -/
  pinD2 : Pin
  /-- PIN_D[3]. -/
  pinD3 : Pin
  /-- PIN_BUTTON. -/
  pinButton : Pin
  /-- PIN_LED1. -/
  pinLed1 : Pin
  /-- PIN_LED2. -/
  pinLed2 : Pin
  /-- GPFSEL_OFF(k), k = 0 .. 5 (R61). -/
  fselOff : Vector Nat 6
  /-- GPSET_OFF (R62). -/
  gpsetOff : Nat
  /-- GPCLR_OFF (R62). -/
  gpclrOff : Nat
  /-- GPLEV_OFF (R62). -/
  gplevOff : Nat
  /-- T_DEADLINE, in units of U_DEADLINE. -/
  tDeadline : Nat
  /-- T_SCROLL, the pause between frames of PRINT, in units of U_HOST. -/
  tScroll : Nat
  /-- MAX_ATTEMPTS, the rounds of a session (R7), the host's. -/
  maxAttempts : Nat
  /-- `colors`, the host's. -/
  colors : Nat
  /-- `seqlen`, the host's. -/
  seqlen : Nat
  /-- U_SETTLE, ticks per time unit of T_SETTLE (R8). -/
  uSettle : Nat
  /-- U_STROBE. -/
  uStrobe : Nat
  /-- U_DEBOUNCE. -/
  uDebounce : Nat
  /-- U_DEADLINE. -/
  uDeadline : Nat
  /-- U_HOST. -/
  uHost : Nat
deriving DecidableEq, Repr

/-- BLOCK_BYTES, the size of the register block (R60). -/
def blockBytes : Nat := 4096

/-- The nine pin parameters. -/
def Cfg.pins (c : Cfg) : List Pin :=
  [c.pinRs, c.pinStrb, c.pinD0, c.pinD1, c.pinD2, c.pinD3, c.pinButton, c.pinLed1, c.pinLed2]

/-- The offsets of every named register of the block. -/
def Cfg.offsets (c : Cfg) : List Nat := c.fselOff.toList ++ [c.gpsetOff, c.gpclrOff, c.gplevOff]

/-- `CfgValid` (R285): the constraints of 00_scope section 5 and of R62. -/
structure Cfg.Valid (c : Cfg) : Prop where
  bits : c.lcdBits = 4
  cols : 1 ≤ c.lcdCols ∧ c.lcdCols ≤ 64
  rows : 1 ≤ c.lcdRows ∧ c.lcdRows ≤ 2
  pins : c.pins.Nodup
  offsets : c.offsets.Nodup
  aligned : ∀ o ∈ c.offsets, o % 4 = 0 ∧ o + 4 ≤ blockBytes
  units : 1 ≤ c.uSettle ∧ 1 ≤ c.uStrobe ∧ 1 ≤ c.uDebounce ∧ 1 ≤ c.uDeadline ∧ 1 ≤ c.uHost
  scroll : c.tScroll < 2 ^ 24

/-- The deployment values of 00_scope section 5. Where that table says OPEN (the nine pins, T_SCROLL, the five units) the spec
gives no value: DESIGN CHOICE (log 4), unsafe for a claim about `State.reset` alone: the pins of the example configuration CfgT
(95_test_vectors section 2), 500 for T_SCROLL, 1 for each unit. No other definition of the model rests on these numbers. -/
def Cfg.deployment : Cfg where
  lcdBits := 4
  lcdCols := 16
  lcdRows := 2
  pinRs := 25
  pinStrb := 24
  pinD0 := 23
  pinD1 := 10
  pinD2 := 27
  pinD3 := 22
  pinButton := 19
  pinLed1 := 13
  pinLed2 := 5
  fselOff := #v[0, 4, 8, 12, 16, 20]
  gpsetOff := 28
  gpclrOff := 40
  gplevOff := 52
  tDeadline := 5000000
  tScroll := 500
  maxAttempts := 10
  colors := 3
  seqlen := 3
  uSettle := 1
  uStrobe := 1
  uDebounce := 1
  uDeadline := 1
  uHost := 1

/-- What the environment and the timer agent do in one gap between two steps of the sequencer: any number of ticks, then any
levels on the pins (R190), then the expiry step if the timer agent is willing and the step is enabled (R193). Any finite
sequence of such steps in one gap has the effect of one such move: ticks add up, the last levels stay, the one-shot timer can
expire once (log 2). -/
structure EnvMove where
  ticks : Nat
  pins : Word
  fires : Bool
deriving DecidableEq, Repr, Inhabited

/-- FREE VALUE (log 2): the environment's move number `n` once the script `State.env` is used up. It has no body: nothing is
known of it, so a claim holds for every value. -/
opaque Config.freeMove : Nat → EnvMove

/-- FREE VALUE (log 3): how many more polls than the script provides a wait makes before fairness (R190, R194, R199) brings the
expiry. It has no body. -/
opaque Config.freeWaitLen : Nat → Nat

end Sys2Proof
end

