-- ==== Sys2Proof/Machine/State.lean ====
section
/-! DEFINITION. The whole state of the block (R20), the environment inputs it reads, and the model's own fields (logs 2, 9); that
state under its parameters, which are not state (R7, R46, logs 4, 5); the stops of the sequencer; the state after reset (R281). -/

namespace Sys2Proof.Machine

/-- `status` (R36). -/
inductive Status where
  /-- From reset until RELEASE completes or a fault is entered. -/
  | running
  /-- RELEASE has completed. -/
  | haltedOk
  /-- A fault has been entered. -/
  | faulted
deriving DecidableEq, Repr

/-- `lcd_mode` (R29), the driver's record of the display controller's mode. -/
inductive LcdMode where
  /-- "Uninitialized". -/
  | uninit
  /-- "8-bit-compatibility". -/
  | compat8
  /-- "4-bit-active". -/
  | active4
  /-- "configured". -/
  | configured
deriving DecidableEq, Repr

/-- One event of the trace (00_scope section 6.3). -/
inductive Event where
  /-- `W(off, v)`. -/
  | write (off : Nat) (v : Word)
  /-- `R(off) = v`. -/
  | read (off : Nat) (v : Word)
  /-- `D(t)`, in ticks. -/
  | delay (ticks : Nat)
  /-- `X`, an expiry step of the timer agent. -/
  | expiry
  /-- `F(code)`, a fault entry. -/
  | fault (code : Byte)
deriving DecidableEq, Repr

/-- Why a step has no next state: the sequencer has no enabled step. None of them is a fault of the block: a fault of the block
(R240) is entered, and that is a next state (R250). -/
inductive Fault where
  /-- Raised by `fetch`: the host's stream has no word at `cp` while `status = RUNNING`; idle, stuck, not final (R284). Safe: the
  model stops where the block waits for a word. -/
  | idle
  /-- Raised by `fetch` and by every meaning: `status = HALTED_OK`, no further step, no command accepted (R36, R251). Safe. -/
  | haltedOk
  /-- Raised by `fetch` and by every meaning: `status = FAULTED`, no further step, no command accepted (R36, R251). Safe. -/
  | faulted
deriving DecidableEq, Repr

/-- Why a command is given no meaning. -/
inductive Refusal where
  /-- Raised by an arm of `exec` whose command has no meaning yet; no arm raises it now. Safe: the model stops. -/
  | notModelled (mnemonic : String)
deriving DecidableEq, Repr

/-- The state that the step relation is over. The first group is R20's tuple, block first and environment inputs second; the last
group is the model's own. The parameters of the step relation (R7, R46) are no part of it. -/
structure Block where
  /-- GPFSEL[0..5], the function-select words (R21). -/
  gpfsel : Vector Word 6
  /-- latch[0..31], bit `p` the output latch of pin `p` (R22). -/
  latch : Word
  /-- The in-memory cursor's column (R27). -/
  cx : Nat
  /-- The in-memory cursor's row (R27). -/
  cy : Nat
  /-- The display-control register, bits D C B (R28). -/
  ctl : BitVec 3
  /-- The previously observed level of the button (R30). -/
  prev : Level
  /-- The press count of a wait, unbounded (R31). -/
  count : Nat
  /-- The command pointer (R33). -/
  cp : Nat
  /-- 1 when the register block is mapped (R34). -/
  acquired : Bool
  /-- The driver's record of the display's mode (R29). -/
  lcdMode : LcdMode
  /-- The response register (R35). -/
  resp : Word
  /-- RUNNING, HALTED_OK or FAULTED (R36). -/
  status : Status
  /-- 0, or the cause code of the fault entered (R37). -/
  faultCause : Byte
  /-- timer.armed (R38). -/
  timerArmed : Bool
  /-- timer.expired, the only flag (R39). -/
  timerExpired : Bool
  /-- timer.fire_at, in ticks (R40). -/
  timerFireAt : Nat
  /-- ext_in[0..31], the levels the outside world drives (R41). -/
  extIn : Word
  /-- The base clock, in ticks (R42). -/
  now : Nat
  /-- Whether the memory device can be opened and mapped, read by ACQUIRE (R43). -/
  hwAvailable : Bool
  /-- The model's own: the next moves of the environment and the timer agent (log 2). -/
  env : List EnvMove
  /-- The model's own: how many free values have been drawn (logs 2, 3). -/
  draws : Nat
  /-- The model's own: the trace so far (00_scope section 6.3, log 9). -/
  trace : List Event
deriving DecidableEq, Repr

/-- A state under the parameters of the step relation (R7, R46). The two fields beside `Block` are not state: `step` and `exec` have
one argument, so their parameters come with it (logs 4, 5); `stepUnder` in Machine/Parameter.lean has them as arguments. -/
structure State extends Block where
  /-- A parameter: the configuration record of R7. -/
  cfg : Cfg
  /-- A parameter: the host's command stream (R33, R46). -/
  stream : List Word
deriving DecidableEq, Repr

/-- The state under given parameters. -/
def Block.under (b : Block) (c : Cfg) (stream : List Word) : State := { b with cfg := c, stream := stream }

/-- The state right after reset (R281). Where R281 says unspecified (`gpfsel`, `latch`, `timerFireAt`, `extIn`, `now`,
`hwAvailable`) the value is a DESIGN CHOICE (log 6), unsafe for a claim about this one state; `CleanReset` in Safety.lean and
`restart` in Machine/Ops.lean leave them arbitrary. The model's own fields are set by logs 2, 9. -/
def Block.reset : Block where
  gpfsel := #v[0, 0, 0, 0, 0, 0]
  latch := 0
  cx := 0
  cy := 0
  ctl := 0
  prev := .low
  count := 0
  cp := 0
  acquired := false
  lcdMode := .uninit
  resp := 0
  status := .running
  faultCause := 0
  timerArmed := false
  timerExpired := false
  timerFireAt := 0
  extIn := 0
  now := 0
  hwAvailable := true
  env := []
  draws := 0
  trace := []

/-- The state right after reset under the deployment's parameters, with no stream loaded (logs 4, 5). -/
def State.reset : State := Block.reset.under Cfg.deployment []

end Sys2Proof.Machine
end

