-- ==== Sys2Proof/Machine/Operands.lean ====
section
/-! DEFINITION. Operand forms and the constants behind them: levels, pin masks, function-select fields, LCD bytes, durations,
fault codes. -/

namespace Sys2Proof.Machine

/-- A level as the bit it is (R116). -/
def levelBit : Level → Bool
  | .low => false
  | .high => true

/-- A bit as a level (R116). -/
def levelOf (b : Bool) : Level := if b then .high else .low

/-- N_PINS (00_scope section 5). -/
def nPins : Nat := 32

/-- `1 << pin`, the pin's bit of a set, clear or level word (R111, R136). -/
def pinMask (p : Pin) : Word := 1#32 <<< p.val

/-- SEL_INPUT (R110). -/
def selInput : BitVec 3 := 0b000

/-- SEL_OUTPUT (R110). -/
def selOutput : BitVec 3 := 0b001

/-- The selector a direction operand is mapped to (R116, R131). -/
def selectorOf : Direction → BitVec 3
  | .input => selInput
  | .output => selOutput

/-- FSEL_PER_WORD, the function-select fields in one word (R21). -/
def fselPerWord : Nat := 10

/-- The function-select word a pin's field lies in, `pin div 10` (R21, R110). -/
def fselWord (p : Pin) : Fin 4 := ⟨p.val / fselPerWord, by unfold fselPerWord; omega⟩

/-- The shift of a pin's field in its word, `3 * (pin mod 10)` (R21, R110). -/
def fselShift (p : Pin) : Nat := 3 * (p.val % fselPerWord)

/-- The pin's field of a function-select word, bits `[s+2 : s]` (R110). -/
def getField (w : Word) (p : Pin) : BitVec 3 := w.extractLsb' (fselShift p) 3

/-- The word with the pin's field replaced: `(w & ~(0b111 << s)) | (sel << s)` (R131). -/
def setField (w : Word) (p : Pin) (sel : BitVec 3) : Word :=
  (w &&& ~~~(7#32 <<< fselShift p)) ||| (sel.setWidth 32 <<< fselShift p)

/-- A pin field of a command as a pin, where it is one (R244). -/
def pinOf (pin : Nat) : Option Pin := if h : pin < 32 then some ⟨pin, h⟩ else none

/-- A pin field of a command that has passed the check `pin < N_PINS`; the other values never reach a register access. -/
def pinOr0 (pin : Nat) : Pin := (pinOf pin).getD 0

/-! ### LCD command bytes (R112) -/

def lcdClearCmd : Byte := 0x01
def lcdEntry : Byte := 0x04
def lcdEntryId : Byte := 0x02
def lcdCtrl : Byte := 0x08
def lcdCtrlD : Byte := 0x04
def lcdCtrlC : Byte := 0x02
def lcdCtrlB : Byte := 0x01
def lcdCdShift : Byte := 0x10
def lcdCdShiftRl : Byte := 0x04
def lcdFunc : Byte := 0x20
def lcdFuncDl : Byte := 0x10
def lcdFuncN : Byte := 0x08
def lcdDgram : Byte := 0x80

/-- ROW_OFF[y], y = 0, 1 (R112). -/
def rowOff (y : Nat) : Byte := if y = 0 then 0x00 else 0x40

/-- The set-address command byte, `x + (LCD_DGRAM | ROW_OFF[y])` in 8 bits (R114). -/
def setAddress (x y : Nat) : Byte := BitVec.ofNat 8 x + (lcdDgram ||| rowOff y)

/-- The display-control command byte, `LCD_CTRL | zext_8(ctl)` (R169). -/
def ctlByte (ctl : BitVec 3) : Byte := lcdCtrl ||| ctl.setWidth 8

/-- `b[7:4]` (R113, R156). -/
def highNibble (b : Byte) : Nibble := b.extractLsb' 4 4

/-- `b[3:0]` (R113, R156). -/
def lowNibble (b : Byte) : Nibble := b.extractLsb' 0 4

/-- `ctl` with bit `i` set to `v` (R28, R166 to R168): 2 is D, 1 is C, 0 is B. -/
def setCtlBit (ctl : BitVec 3) (i : Nat) (v : Bool) : BitVec 3 :=
  if v then ctl ||| (1#3 <<< i) else ctl &&& ~~~(1#3 <<< i)

/-! ### Durations, in time units (R207) -/

/-- T_SETTLE. -/
def tSettle : Nat := 35
/-- T_STROBE. -/
def tStrobe : Nat := 50
/-- T_DEBOUNCE. -/
def tDebounce : Nat := 300

/-! ### Faults of the block (R241) -/

/-- The causes of R241. -/
inductive BlockFault where
  | hardwareUnavailable
  | unsupportedConfiguration
  /-- Reserved for the host, never raised by the block. -/
  | invalidDigit
  /-- Reserved for the host, never raised by the block. -/
  | malformedSecretLength
  | illegalCommand
  | invalidPin
  | notAcquired
  | alreadyAcquired
  | lcdNotInitialized
deriving DecidableEq, Repr

/-- The cause codes of R241. -/
def faultCode : BlockFault → Byte
  | .hardwareUnavailable => 1
  | .unsupportedConfiguration => 2
  | .invalidDigit => 3
  | .malformedSecretLength => 4
  | .illegalCommand => 16
  | .invalidPin => 17
  | .notAcquired => 18
  | .alreadyAcquired => 19
  | .lcdNotInitialized => 20

end Sys2Proof.Machine
end

