-- ==== Sys2Proof/Machine/Flags.lean ====
section
/-! DEFINITION. The trace's append, and every computation of the block's one flag, `timer.expired` (R39, R77): cleared by arming,
set by the expiry step, by nothing else. -/

namespace Sys2Proof.Machine

/-- Appends one event to the trace (00_scope section 6.3). -/
def emit (e : Event) (s : State) : State := { s with trace := s.trace ++ [e] }

/-- `timer_arm()`, one atomic step: clear the flag, set the deadline, arm (R192). -/
def timerArm (s : State) : State :=
  { s with
    timerExpired := false
    timerFireAt := s.now + s.cfg.tDeadline * s.cfg.uDeadline
    timerArmed := true }

/-- The expiry step is enabled: armed, and the deadline has come (R193). -/
def expiryEnabled (s : State) : Bool := s.timerArmed && decide (s.timerFireAt ≤ s.now)

/-- The expiry step of the timer agent: set the flag, disarm, and nothing else (R193). -/
def expiryStep (s : State) : State := emit .expiry { s with timerExpired := true, timerArmed := false }

/-- The timer agent takes its step if it is willing and the step is enabled. -/
def timerAgent (willing : Bool) (s : State) : State :=
  if expiryEnabled s && willing then expiryStep s else s

end Sys2Proof.Machine
end

