-- ==== Sys2Proof/Machine/Ops.lean ====
section
/-! DEFINITION. The operations every command is made of: the gap in which environment and timer agent act, the accesses of the
register block, the delay, fault entry, the checks before a command, and fetching a command word. -/

namespace Sys2Proof.Machine

/-! ### Environment and time -/

/-- The environment's next move: the script's, or a free value once the script is used up (log 2). -/
def nextMove (s : State) : EnvMove :=
  match s.env with
  | m :: _ => m
  | [] => Config.freeMove s.draws

/-- The state in which that move has been taken off the script, or drawn. -/
def dropMove (s : State) : State :=
  match s.env with
  | _ :: rest => { s with env := rest }
  | [] => { s with draws := s.draws + 1 }

/-- `n` tick steps of the environment (R190 (a)). -/
def tick (n : Nat) (s : State) : State := { s with now := s.now + n }

/-- Pin changes of the environment: the levels it drives now (R190 (b)). -/
def pinChange (levels : Word) (s : State) : State := { s with extIn := levels }

/-- One gap between two steps of the sequencer: the environment's ticks, at least `atLeast` of them, its pin changes, then the
timer agent (R190, R193). `must` says that fairness brings the expiry in this gap if it is enabled (R194). -/
def gapWith (atLeast : Nat) (must : Bool) (s : State) : State :=
  timerAgent ((nextMove s).fires || must)
    (pinChange (nextMove s).pins (tick (max (nextMove s).ticks atLeast) (dropMove s)))

/-- A gap in which nothing holds the sequencer. -/
def gap (s : State) : State := gapWith 0 false s

/-- `Delay`, of `t = n * U` ticks: the sequencer is held until `now >= t0 + t`, the other agents go on, then `D(t)` (R200). -/
def delay (t : Nat) (s : State) : State := emit (.delay t) (gapWith t false s)

/-! ### The register block -/

/-- The admitted reads (R67). -/
inductive ReadReq where
  | gpfsel (k : Fin 4)
  | gplev
deriving DecidableEq, Repr

/-- The admitted writes (R67). -/
inductive WriteReq where
  | gpfsel (k : Fin 4)
  | gpset
  | gpclr
deriving DecidableEq, Repr

/-- The byte offset of GPFSEL[k] (R61). -/
def fselOffset (c : Cfg) (k : Fin 4) : Nat := c.fselOff[k.val]

/-- The byte offset a read goes to (R61). -/
def readOffset (c : Cfg) : ReadReq → Nat
  | .gpfsel k => fselOffset c k
  | .gplev => c.gplevOff

/-- The byte offset a write goes to (R61). -/
def writeOffset (c : Cfg) : WriteReq → Nat
  | .gpfsel k => fselOffset c k
  | .gpset => c.gpsetOff
  | .gpclr => c.gpclrOff

/-- GPFSEL[k], `k` in 0..3. -/
def gpfselWord (s : State) (k : Fin 4) : Word := s.gpfsel[k.val]

/-- The function-select field of a pin, which is its direction (R21, R47). -/
def field (s : State) (p : Pin) : BitVec 3 := getField (gpfselWord s (fselWord p)) p

/-- The level of a pin: its latch if its field is SEL_OUTPUT, the outside level otherwise (R25). -/
def pinLevel (s : State) (p : Pin) : Bool :=
  if field s p = selOutput then s.latch.getLsbD p.val else s.extIn.getLsbD p.val

/-- GPLEV, a view: bit `p` is the level of pin `p` (R25, R72). -/
def gplev (s : State) : Word := BitVec.ofFnLE (pinLevel s)

/-- What an admitted read returns; no read has a side effect (R68, R72, R73). -/
def readValue (s : State) : ReadReq → Word
  | .gpfsel k => gpfselWord s k
  | .gplev => gplev s

/-- What an admitted write does to the block: store a function-select word (R69), set latches (R70), clear latches (R71). -/
def store (r : WriteReq) (v : Word) (s : State) : State :=
  match r with
  | .gpfsel k => { s with gpfsel := s.gpfsel.set k.val v }
  | .gpset => { s with latch := s.latch ||| v }
  | .gpclr => { s with latch := s.latch &&& ~~~v }

/-- A read at this instant, with its `R` event: no agent steps before it. -/
def readNow (r : ReadReq) (s : State) : State := emit (.read (readOffset s.cfg r) (readValue s r)) s

/-- `MemRead` of an admitted request as a sequencer step: a gap, then the read; the value is that of the state after the gap. -/
def regRead (r : ReadReq) (s : State) : Word × State :=
  (readValue (gap s) r, readNow r (gap s))

/-- `MemWrite` of an admitted request as a sequencer step: a gap, then the write, with its `W` event (R74, R76). -/
def regWrite (r : WriteReq) (v : Word) (s : State) : State :=
  emit (.write (writeOffset s.cfg r) v) (store r v (gap s))

/-- Which admitted read an offset names (R61, R67). -/
def readReqAt (c : Cfg) (off : Nat) : Option ReadReq :=
  if off = c.gplevOff then some .gplev
  else ((List.finRange 4).find? (fun k => decide (off = fselOffset c k))).map .gpfsel

/-- Which admitted write an offset names (R61, R67). -/
def writeReqAt (c : Cfg) (off : Nat) : Option WriteReq :=
  if off = c.gpsetOff then some .gpset
  else if off = c.gpclrOff then some .gpclr
  else ((List.finRange 4).find? (fun k => decide (off = fselOffset c k))).map .gpfsel

/-- `MemRead(off, 4)` by offset: no step unless the block is acquired and the request is admitted (R65 to R67). -/
def memRead (off : Nat) (s : State) : Option (Word × State) :=
  if s.acquired then (readReqAt s.cfg off).map (fun r => regRead r s) else none

/-- `MemWrite(off, 4, v)` by offset: no step unless the block is acquired and the request is admitted (R65 to R67). -/
def memWrite (off : Nat) (v : Word) (s : State) : Option State :=
  if s.acquired then (writeReqAt s.cfg off).map (fun r => regWrite r v s) else none

/-- The word that stands at a byte offset: a function-select word, or the level register's view. The set and clear registers hold
none (R23, R24), nor does an offset with no name (R26). -/
def wordAt (s : State) (off : Nat) : Option Word :=
  if off = s.cfg.gplevOff then some (gplev s)
  else ((List.finRange 6).find? (fun k => decide (off = s.cfg.fselOff[k]))).map (fun k => s.gpfsel[k])

/-- The byte at a byte offset, for a reader who thinks of the block as bytes: little-endian, byte `off` holds bits [7:0] of the
word at `off` (R64). -/
def storedByte (s : State) (addr : Nat) : Option Byte :=
  (wordAt s (addr - addr % 4)).map (fun w => w.extractLsb' (8 * (addr % 4)) 8)

/-- `PinWrite(pin, level)`, the body of WRITE: one write of GPSET or GPCLR (R135). -/
def pinWrite (p : Pin) (level : Level) (s : State) : State :=
  match level with
  | .high => regWrite .gpset (pinMask p) s
  | .low => regWrite .gpclr (pinMask p) s

/-- The pin's level in a word read from GPLEV: HIGH if `(w & (1 << pin)) != 0` (R138). -/
def levelIn (w : Word) (p : Pin) : Level := if w &&& pinMask p ≠ 0 then .high else .low

/-! ### Faults, completion, checks -/

/-- Fault entry, one atomic step (R250). -/
def faultEntry (f : BlockFault) (s : State) : State :=
  emit (.fault (faultCode f))
    { s with faultCause := faultCode f, status := .faulted, acquired := false, timerArmed := false }

/-- `cp <- cp + 1`, the end of every completed command but RELEASE (R33). -/
def advance (s : State) : State := { s with cp := s.cp + 1 }

/-- The first fault whose condition holds, in the order the checks are listed (R247). -/
def firstFault : List (Bool × BlockFault) → Option BlockFault
  | [] => none
  | (holds, f) :: rest => if holds then some f else firstFault rest

/-- A command after its checks: fault entry, or its body (R240: every check stands before the first access). -/
def afterChecks (checks : List (Bool × BlockFault)) (body : State → State) (s : State) : State :=
  match firstFault checks with
  | some f => faultEntry f s
  | none => body s

/-- Performing one command: not at all in HALTED_OK and FAULTED (R36, R251); otherwise a gap, then the checks and the body. -/
def perform (checks : State → List (Bool × BlockFault)) (body : State → State) (s : State) :
    Host.Outcome State Fault Refusal :=
  match s.status with
  | .running => .next (afterChecks (checks (gap s)) body (gap s))
  | .haltedOk => .fault .haltedOk
  | .faulted => .fault .faulted

/-- The checks of the pin commands: the pin index before the mapping (R247). -/
def pinChecks (pin : Nat) (s : State) : List (Bool × BlockFault) :=
  [(decide (nPins ≤ pin), .invalidPin), (!s.acquired, .notAcquired)]

/-- The checks of every LCD command but LCD_INIT (R150). -/
def lcdChecks (s : State) : List (Bool × BlockFault) :=
  [(!s.acquired, .notAcquired), (decide (s.lcdMode ≠ .configured), .lcdNotInitialized)]

/-- A reserved word: `IllegalCommand` and nothing else (R102, R242). -/
def reservedWord (s : State) : Host.Outcome State Fault Refusal :=
  perform (fun _ => [(true, .illegalCommand)]) id s

/-! ### The command stream and reset -/

/-- What fetching the word at `cp` gives. -/
inductive Fetched where
  | word (w : Word)
  | stop (f : Fault)
deriving DecidableEq, Repr

/-- The word at `cp` of the host's stream (R33), if the sequencer accepts a command (R36) and there is one (R284). -/
def fetch (s : State) : Fetched :=
  match s.status with
  | .running =>
    match s.stream[s.cp]? with
    | some w => .word w
    | none => .stop .idle
  | .haltedOk => .stop .haltedOk
  | .faulted => .stop .faulted

/-- The stream with `w` at index `cp`; indices the stream does not reach are filled with the reserved word 0. -/
def placeWord (w : Word) (cp : Nat) (stream : List Word) : List Word :=
  stream.take cp ++ List.replicate (cp - stream.length) 0 ++ w :: stream.drop (cp + 1)

/-- Reset, the start of a host process with its command stream, from any state (R280 to R283): the block's own state takes its
reset values, the register block, the environment and what the model keeps fixed are not touched, the new run's trace is empty. -/
def restart (stream : List Word) (s : State) : State :=
  { s with
    cx := 0, cy := 0, ctl := 0, prev := .low, count := 0, cp := 0, acquired := false, lcdMode := .uninit, resp := 0
    status := .running, faultCause := 0, timerArmed := false, timerExpired := false, stream := stream, trace := [] }

/-- The exit status the block's end gives the host process: 0 for HALTED_OK, `fault_cause` for FAULTED (R36). What the process
reports after a fatal error of its own is `hostExitStatus` (R235). -/
def exitStatus (s : State) : Option Byte :=
  match s.status with
  | .running => none
  | .haltedOk => some 0
  | .faulted => some s.faultCause

end Sys2Proof.Machine
end

