-- ==== Sys2Proof/Machine/Lcd.lean ====
section
/-! DEFINITION. The LCD Protocol Driver: its micro-operations and its eight commands (41_lcd_driver). -/

namespace Sys2Proof.Machine

/-! ### Micro-operations -/

/-- `set_rs(rs)`: LOW for commands, HIGH for data (R154). -/
def setRs (rs : Level) (s : State) : State := pinWrite s.cfg.pinRs rs s

/-- `emit_nibble(n)`: four writes, PIN_D[0] first, each made whether or not the level changes (R151). -/
def emitNibble (n : Nibble) (s : State) : State :=
  let s := pinWrite s.cfg.pinD0 (levelOf (n.getLsbD 0)) s
  let s := pinWrite s.cfg.pinD1 (levelOf (n.getLsbD 1)) s
  let s := pinWrite s.cfg.pinD2 (levelOf (n.getLsbD 2)) s
  pinWrite s.cfg.pinD3 (levelOf (n.getLsbD 3)) s

/-- One half of a strobe: the line to `level`, then the hold (R152). -/
def strobeTo (level : Level) (s : State) : State :=
  let s := pinWrite s.cfg.pinStrb level s
  delay (tStrobe * s.cfg.uStrobe) s

/-- `strobe()`: high, hold, low, hold (R152). -/
def strobe (s : State) : State := strobeTo .low (strobeTo .high s)

/-- `send_byte(rs, b)`: register select, high nibble, strobe, low nibble, strobe (R156). -/
def sendByte (rs : Level) (b : Byte) (s : State) : State :=
  strobe (emitNibble (lowNibble b) (strobe (emitNibble (highNibble b) (setRs rs s))))

/-- `put4cmd(n)`: the half-byte write of a command (R157). -/
def put4cmd (n : Nibble) (s : State) : State := strobe (emitNibble n (setRs .low s))

/-- `send_ctl()` (R169). -/
def sendCtl (s : State) : State := sendByte .low (ctlByte s.ctl) s

/-- One display-control command: set one bit of `ctl`, send the register (R166 to R169). -/
def setCtl (i : Nat) (v : Bool) (s : State) : State := sendCtl { s with ctl := setCtlBit s.ctl i v }

/-! ### LCD_INIT -/

/-- One of the three 8-bit function-set half-bytes with its settle delay (R160). -/
def functionSet8 (s : State) : State :=
  let s := put4cmd (highNibble (lcdFunc ||| lcdFuncDl)) s
  delay (tSettle * s.cfg.uSettle) s

/-- Uninitialized to 8-bit-compatibility: three times (R160). -/
def initCompat8 (s : State) : State :=
  { functionSet8 (functionSet8 (functionSet8 { s with lcdMode := .uninit })) with lcdMode := .compat8 }

/-- 8-bit-compatibility to 4-bit-active: once more without the 8-bit flag (R160). -/
def initActive4 (s : State) : State := { put4cmd (highNibble lcdFunc) s with lcdMode := .active4 }

/-- The two-line function-set, sent if there is more than one row (R160). -/
def initLines (s : State) : State :=
  if 1 < s.cfg.lcdRows then sendByte .low (lcdFunc ||| lcdFuncN) s else s

/-- display-on, cursor-off, blink-off (R160). -/
def initCtl (s : State) : State := setCtl 0 false (setCtl 1 false (setCtl 2 true { s with ctl := 0 }))

/-- Clear, with the cursor to (0, 0) (R160, R165). -/
def clearOn (s : State) : State := { sendByte .low lcdClearCmd s with cx := 0, cy := 0 }

/-- 4-bit-active to configured (R160). -/
def initConfigured (s : State) : State :=
  { sendByte .low (lcdCdShift ||| lcdCdShiftRl)
      (sendByte .low (lcdEntry ||| lcdEntryId) (clearOn (initCtl (initLines s)))) with lcdMode := .configured }

/-- LCD_INIT (R160). -/
def execLcdInit (s : State) : Host.Outcome State Fault Refusal :=
  perform (fun s => [(!s.acquired, .notAcquired), (decide (s.cfg.lcdBits ≠ 4), .unsupportedConfiguration)])
    (fun s => advance (initConfigured (initActive4 (initCompat8 s)))) s

/-! ### The other commands -/

/-- LCD_CMD byte: the cursor and `ctl` are not touched, whatever the byte is (R162). -/
def execLcdCmd (b : Byte) (s : State) : Host.Outcome State Fault Refusal :=
  perform lcdChecks (fun s => advance (sendByte .low b s)) s

/-- The cursor after one character: column first, then row, both wrapping (R163). -/
def nextCursor (c : Cfg) (cx cy : Nat) : Nat × Nat :=
  if cx + 1 = c.lcdCols then (0, if cy + 1 = c.lcdRows then 0 else cy + 1) else (cx + 1, cy)

/-- The character as data, the cursor's advance, and on a wrap of the column the set-address of the new line (R163). -/
def putCharOn (b : Byte) (s : State) : State :=
  let wraps := decide (s.cx + 1 = s.cfg.lcdCols)
  let s := sendByte .high b s
  let s := { s with cx := (nextCursor s.cfg s.cx s.cy).1, cy := (nextCursor s.cfg s.cx s.cy).2 }
  if wraps then sendByte .low (setAddress s.cx s.cy) s else s

/-- PUT_CHAR byte (R163). -/
def execPutChar (b : Byte) (s : State) : Host.Outcome State Fault Refusal :=
  perform lcdChecks (fun s => advance (putCharOn b s)) s

/-- A column and row inside the geometry `[0, cols) × [0, rows)` (R164). -/
def inGeometry (c : Cfg) (x y : Nat) : Bool := decide (x < c.lcdCols) && decide (y < c.lcdRows)

/-- Outside the geometry nothing; inside, the set-address command, then the cursor (R164). -/
def positionOn (x y : Nat) (s : State) : State :=
  if inGeometry s.cfg x y then { sendByte .low (setAddress x y) s with cx := x, cy := y } else s

/-- POSITION x, y (R164). -/
def execPosition (x y : Nat) (s : State) : Host.Outcome State Fault Refusal :=
  perform lcdChecks (fun s => advance (positionOn x y s)) s

/-- LCD_CLEAR (R165). -/
def execLcdClear (s : State) : Host.Outcome State Fault Refusal :=
  perform lcdChecks (fun s => advance (clearOn s)) s

/-- LCD_DISPLAY v (R166). -/
def execLcdDisplay (v : Bool) (s : State) : Host.Outcome State Fault Refusal :=
  perform lcdChecks (fun s => advance (setCtl 2 v s)) s

/-- LCD_CURSOR v (R167). -/
def execLcdCursor (v : Bool) (s : State) : Host.Outcome State Fault Refusal :=
  perform lcdChecks (fun s => advance (setCtl 1 v s)) s

/-- LCD_BLINK v (R168). -/
def execLcdBlink (v : Bool) (s : State) : Host.Outcome State Fault Refusal :=
  perform lcdChecks (fun s => advance (setCtl 0 v s)) s

end Sys2Proof.Machine
end

