-- ==== Sys2Proof/Machine/RegisterIO.lean ====
section
/-! DEFINITION. The Register I/O family: ACQUIRE, RELEASE, SET_MODE, WRITE, READ (40_register_io). -/

namespace Sys2Proof.Machine

/-- ACQUIRE (R130). -/
def execAcquire (s : State) : Host.Outcome State Fault Refusal :=
  perform (fun s => [(s.acquired, .alreadyAcquired), (!s.hwAvailable, .hardwareUnavailable)])
    (fun s => advance { s with acquired := true }) s

/-- RELEASE: no check, `cp` stays (R140). -/
def execRelease (s : State) : Host.Outcome State Fault Refusal :=
  perform (fun _ => []) (fun s => { s with acquired := false, timerArmed := false, status := .haltedOk }) s

/-- The accesses of SET_MODE: one read, one write of the word the pin's field lies in (R131). -/
def setModeOn (p : Pin) (dir : Direction) (s : State) : State :=
  let (w, s) := regRead (.gpfsel (fselWord p)) s
  regWrite (.gpfsel (fselWord p)) (setField w p (selectorOf dir)) s

/-- SET_MODE pin, dir (R131). -/
def execSetMode (pin : Nat) (dir : Direction) (s : State) : Host.Outcome State Fault Refusal :=
  perform (pinChecks pin) (fun s => advance (setModeOn (pinOr0 pin) dir s)) s

/-- WRITE pin, level (R135). -/
def execWrite (pin : Nat) (level : Level) (s : State) : Host.Outcome State Fault Refusal :=
  perform (pinChecks pin) (fun s => advance (pinWrite (pinOr0 pin) level s)) s

/-- The access of READ and what it leaves in `resp`: `zext_32` of the pin's level (R138). -/
def readOn (p : Pin) (s : State) : State :=
  let (w, s) := regRead .gplev s
  { s with resp := (BitVec.ofBool (levelBit (levelIn w p))).setWidth 32 }

/-- READ pin (R138). -/
def execRead (pin : Nat) (s : State) : Host.Outcome State Fault Refusal :=
  perform (pinChecks pin) (fun s => advance (readOn (pinOr0 pin) s)) s

end Sys2Proof.Machine
end

