-- ==== Sys2Proof/Machine/TimedInput.lean ====
section
/-! DEFINITION. Timed Input Acquisition: WAIT_INPUT and DELAY (42_timed_input). -/

namespace Sys2Proof.Machine

/-- `count <- count + 1` (R195). -/
def countPress (s : State) : State := { s with count := s.count + 1 }

/-- `prev <- l` (R195). -/
def setPrev (l : Level) (s : State) : State := { s with prev := l }

/-- What the loop does with the level a poll has read (R195): a change into HIGH counts and is followed by the debounce delay, a
change into LOW does neither, either one is remembered. -/
def takeLevel (l : Level) (s : State) : State :=
  if l = s.prev then s
  else
    match l with
    | .high => setPrev .high (delay (tDebounce * s.cfg.uDebounce) (countPress s))
    | .low => setPrev .low s

/-- The rest of a poll step whose flag test found 0, at the same instant (R196), and the loop's body after it (R195). -/
def pollOn (s : State) : State := takeLevel (levelIn (gplev s) s.cfg.pinButton) (readNow .gplev s)

/-- The loop (R195): a gap, the flag test, the poll. At most `n` polls find the flag clear; then fairness (R194, R199) brings
the deadline and the expiry step, and the next flag test ends the loop (log 3). -/
def waitLoop : Nat → State → State
  | 0, s => gapWith (s.timerFireAt - s.now) true s
  | n + 1, s => if (gap s).timerExpired then gap s else waitLoop n (pollOn (gap s))

/-- The start of a wait: the timer armed, `prev` LOW, `count` 0 (R192, R195). The counter of free values advances, so that each
wait draws a length of its own (log 3). -/
def startWait (s : State) : State := { timerArm (gap s) with prev := .low, count := 0, draws := (gap s).draws + 1 }

/-- How many polls of a wait may find the flag clear: the script's, then a free number (log 3). -/
def waitFuel (s : State) : Nat := Config.freeWaitLen s.draws + s.env.length

/-- The whole wait; `resp` takes the count in 32 bits (R195, R197). -/
def waitOn (s : State) : State :=
  let s := startWait s
  let s := waitLoop (waitFuel s) s
  { s with resp := BitVec.ofNat 32 s.count }

/-- WAIT_INPUT (R195). -/
def execWaitInput (s : State) : Host.Outcome State Fault Refusal :=
  perform (fun s => [(!s.acquired, .notAcquired)]) (fun s => advance (waitOn s)) s

/-- DELAY n: no check (R201). -/
def execDelay (n : Nat) (s : State) : Host.Outcome State Fault Refusal :=
  perform (fun _ => []) (fun s => advance (delay (n * s.cfg.uHost) s)) s

end Sys2Proof.Machine
end

