-- ==== Sys2Proof/Machine/Dispatch.lean ====
section
/-! DEFINITION. One arm per command: each is one direct call of its meaning. -/

namespace Sys2Proof.Machine

def exec (i : Instr) (s : State) : Host.Outcome State Fault Refusal :=
  match i with
  | .acquire => Sys2Proof.Machine.execAcquire s
  | .release => Sys2Proof.Machine.execRelease s
  | .setMode pin dir => Sys2Proof.Machine.execSetMode pin dir s
  | .write pin level => Sys2Proof.Machine.execWrite pin level s
  | .read pin => Sys2Proof.Machine.execRead pin s
  | .lcdInit => Sys2Proof.Machine.execLcdInit s
  | .lcdCmd byte => Sys2Proof.Machine.execLcdCmd byte s
  | .putChar byte => Sys2Proof.Machine.execPutChar byte s
  | .position x y => Sys2Proof.Machine.execPosition x y s
  | .lcdClear => Sys2Proof.Machine.execLcdClear s
  | .lcdDisplay on => Sys2Proof.Machine.execLcdDisplay on s
  | .lcdCursor on => Sys2Proof.Machine.execLcdCursor on s
  | .lcdBlink on => Sys2Proof.Machine.execLcdBlink on s
  | .waitInput => Sys2Proof.Machine.execWaitInput s
  | .delay n => Sys2Proof.Machine.execDelay n s

end Sys2Proof.Machine
end

