-- ==== Sys2Proof/Machine/Step.lean ====
section
/-! DEFINITION. One step: fetch the word at `cp`, decode it, perform it (R33, R36, R101, R102). -/

namespace Sys2Proof.Machine

def step (s : State) : Host.Outcome State Fault Refusal :=
  match fetch s with
  | .stop f => .fault f
  | .word w =>
    match decode w with
    | .command i => exec i s
    | .reserved _ => reservedWord s

/-- `s` with that word at the index of the host's stream that the next step fetches (log 5). -/
def State.withFetchWord (s : State) (nbits w : Nat) : State :=
  { s with stream := placeWord (tableWord nbits w) s.cp s.stream }

end Sys2Proof.Machine
end

