-- ==== Sys2Proof/Machine/HostSide.lean ====
section
/-! DEFINITION. The host beside the block (50_host_collaborators), which R5 leaves out of the hardware: the matching engine, the
decoding of a secret, the session machine. Plain functions; no definition of the block uses them (log 13). -/

namespace Sys2Proof.Machine

/-! ### Matching (R220 to R225) -/

/-- A slot of a working copy: a colour, or one of the two sentinels, values no colour can have (R223). -/
inductive Peg where
  | color (v : Nat)
  | sentS
  | sentG
deriving DecidableEq, Repr

/-- The exact pass: how many positions agree, and both working copies with those positions consumed (R223). -/
def exactPass : List Peg → List Peg → Nat × List Peg × List Peg
  | a :: s, b :: g =>
    let r := exactPass s g
    if a = b then (r.1 + 1, .sentS :: r.2.1, .sentG :: r.2.2) else (r.1, a :: r.2.1, b :: r.2.2)
  | [], g => (0, [], g)
  | s, [] => (0, s, [])

/-- The secret copy with its first slot equal to `v`, in ascending index, consumed (R223, R224). -/
def consumeFirst (v : Peg) : List Peg → Option (List Peg)
  | [] => none
  | a :: s => if a = v then some (.sentS :: s) else (consumeFirst v s).map (fun s' => a :: s')

/-- The approximate pass over the guess copy, in ascending index (R223). -/
def approxPass : List Peg → List Peg → Nat
  | [], _ => 0
  | b :: g, s =>
    if b = .sentG then approxPass g s
    else
      match consumeFirst b s with
      | some s' => approxPass g s' + 1
      | none => approxPass g s

/-- `score(secret, guess)`, exact and approximate (R223). -/
def score (secret guess : List Nat) : Nat × Nat :=
  let r := exactPass (secret.map .color) (guess.map .color)
  (r.1, approxPass r.2.2 r.2.1)

/-! ### Secret intake (R226) -/

/-- The last `k` decimal digits of `n`, the least significant last (R226). -/
def decimalDigits : Nat → Nat → List Nat
  | 0, _ => []
  | k + 1, n => decimalDigits k (n / 10) ++ [n % 10]

/-- `n` is written with exactly `k` decimal digits. -/
def hasDigits (k n : Nat) : Bool := decide (1 ≤ k ∧ n < 10 ^ k ∧ (k = 1 ∨ 10 ^ (k - 1) ≤ n))

/-- What reading a configured secret gives (R226, R235). -/
inductive SecretResult where
  | ok (seq : List Nat)
  | malformedSecretLength
  | invalidDigit
deriving DecidableEq, Repr

/-- The secret from an integer: its digits, if their number is `seqlen` and each lies in `[1, colors]` (R226). -/
def decodeSecret (seqlen colors n : Nat) : SecretResult :=
  if hasDigits seqlen n then
    if (decimalDigits seqlen n).all (fun d => decide (1 ≤ d) && decide (d ≤ colors)) then .ok (decimalDigits seqlen n)
    else .invalidDigit
  else .malformedSecretLength

/-- A configured secret of the deployment's length and colours (R7, R221, R226). -/
def configuredSecret (c : Cfg) (n : Nat) : SecretResult := decodeSecret c.seqlen c.colors n

/-! ### Errors of the host and the end of its process (R235) -/

/-- The host's own fatal errors, both of a configured secret at startup (R235). The block raises neither. -/
inductive HostFatal where
  | invalidDigit
  | malformedSecretLength
deriving DecidableEq, Repr

/-- The fatal error that reading a configured secret ends in, if it does (R226, R235). -/
def SecretResult.fatal : SecretResult → Option HostFatal
  | .ok _ => none
  | .malformedSecretLength => some .malformedSecretLength
  | .invalidDigit => some .invalidDigit

/-- The code of a host's fatal error: the codes R241 reserves for the host. -/
def hostCode : HostFatal → Byte
  | .invalidDigit => faultCode .invalidDigit
  | .malformedSecretLength => faultCode .malformedSecretLength

/-- The commands the host owes the block on every exit path of its own, a fatal error among them (R234, R235, R236). -/
def exitPath : List Instr := [.release]

/-- The exit status of the host process: the block's where the host had no fatal error; after one, non-zero although the block
ends in HALTED_OK (R235); nothing while the block runs, since the host still owes it the exit path. -/
def hostExitStatus (error : Option HostFatal) (s : State) : Option Byte :=
  match s.status, error with
  | .haltedOk, some f => some (hostCode f)
  | .haltedOk, none => exitStatus s
  | .running, _ => exitStatus s
  | .faulted, _ => exitStatus s

/-! ### The session (R227 to R234) -/

/-- The states of a session (R228). -/
inductive Phase where
  | awaitingGuess
  | scoring
  | roundComplete
  | won
  | lost
deriving DecidableEq, Repr

/-- A `Sequence` of the deployment: `seqlen` colours, each in `[1, colors]` (R221). -/
def isSequence (c : Cfg) (l : List Nat) : Bool :=
  decide (l.length = c.seqlen) && l.all (fun v => decide (1 ≤ v) && decide (v ≤ c.colors))

/-- `GameSession` and the guess and score of the round (R221, R222, R227). `seqlen`, `colors` and `maxAttempts` are the
deployment's (R7). -/
structure Session where
  secret : List Nat
  seqlen : Nat
  colors : Nat
  maxAttempts : Nat
  attempts : Nat
  guess : List Nat
  result : Nat × Nat
  phase : Phase
deriving DecidableEq, Repr

/-- A session after its secret is established (R227): only a sequence of the deployment can be a secret (R221), whether it was
generated or configured (R226). The match result is produced fresh by each round's scoring (R222); that it is `(0, 0)` before the
first scoring, where the spec gives it no value, is a DESIGN CHOICE (log 13). -/
def newSession (c : Cfg) (secret : List Nat) : Option Session :=
  if isSequence c secret then
    some {
      secret := secret
      seqlen := c.seqlen
      colors := c.colors
      maxAttempts := c.maxAttempts
      attempts := 0
      guess := []
      result := (0, 0)
      phase := .awaitingGuess }
  else none

/-- The session of a configured secret, or the fatal error that reading it ends in (R226, R227, R235). -/
def configuredSession (c : Cfg) (n : Nat) : Option Session :=
  match configuredSecret c n with
  | .ok seq => newSession c seq
  | .malformedSecretLength => none
  | .invalidDigit => none

/-- `AwaitingGuess`: the count a wait returned is the next digit if it lies in `[1, colors]`, else it is refused and the wait is
repeated (`awaitGuess`); a guess of `seqlen` digits goes to scoring (R221, R230). -/
def takeDigit (count : Nat) (g : Session) : Session :=
  if g.phase = .awaitingGuess ∧ 1 ≤ count ∧ count ≤ g.colors then
    { g with
      guess := g.guess ++ [count]
      phase := if g.guess.length + 1 = g.seqlen then .scoring else .awaitingGuess }
  else g

/-- `Scoring` (R231). -/
def scoreRound (g : Session) : Session :=
  if g.phase = .scoring then { g with result := score g.secret g.guess, phase := .roundComplete } else g

/-- `RoundComplete`: count the attempt; the win test comes first (R233). -/
def completeRound (g : Session) : Session :=
  if g.phase = .roundComplete then
    { g with
      attempts := g.attempts + 1
      guess := if g.result.1 = g.secret.length ∨ g.maxAttempts ≤ g.attempts + 1 then g.guess else []
      phase :=
        if g.result.1 = g.secret.length then .won
        else if g.maxAttempts ≤ g.attempts + 1 then .lost
        else .awaitingGuess }
  else g

end Sys2Proof.Machine
end

