-- ==== Sys2Proof/Machine/Parameter.lean ====
section
/-! DEFINITION. The step relation with its parameters as arguments and not in the state (R7, R46): the configuration record and the
host's command stream. -/

namespace Sys2Proof.Machine

/-- One step under a configuration and a command stream (R7, R46). -/
def stepUnder (c : Cfg) (stream : List Word) (b : Block) : Host.Outcome Block Fault Refusal :=
  match step (b.under c stream) with
  | .next t => .next t.toBlock
  | .fault r => .fault r
  | .refused r => .refused r

/-- The step relation of the spec: a relation between states, with the parameters of R7 and R46. -/
def StepUnder (c : Cfg) (stream : List Word) (a b : Block) : Prop := stepUnder c stream a = .next b

/-- The machine that a configuration and a command stream give, from reset. -/
def coreUnder (c : Cfg) (stream : List Word) : Host.Core where
  State := Block
  Fault := Fault
  Refusal := Refusal
  step := stepUnder c stream
  reset := Block.reset

end Sys2Proof.Machine
end

