-- ==== Sys2Proof/Machine/Pseudo.lean ====
section
/-! DEFINITION. The pseudo-commands (R106): each is its expansion into commands, made before the block sees it. -/

namespace Sys2Proof.Machine

/-- One frame: the position of column 0, then the characters (R171, R172). -/
def printFrame (row : Nat) (window : List Byte) : List Instr := .position 0 row :: window.map .putChar

/-- Frame `k` of a message that does not fit, with the pause after it unless it is the last (R172). -/
def printScrollFrame (c : Cfg) (m : List Byte) (row k : Nat) : List Instr :=
  printFrame row ((m.drop k).take c.lcdCols) ++
    if k < m.length - c.lcdCols then [.delay c.tScroll] else []

/-- `PRINT "message", row` (R170 to R173). -/
def expandPrint (c : Cfg) (m : List Byte) (row : Nat) : List Instr :=
  if m.length ≤ c.lcdCols then printFrame row m
  else (List.range (m.length - c.lcdCols + 1)).flatMap (printScrollFrame c m row)

/-- `LED_ON led` (R143). -/
def expandLedOn (led : Pin) : List Instr := [.write led.val .high]

/-- `LED_OFF led` (R143). -/
def expandLedOff (led : Pin) : List Instr := [.write led.val .low]

/-- `PIN_OUTPUT pin` (R106). -/
def expandPinOutput (pin : Nat) : List Instr := [.setMode pin .output]

/-- `PIN_INPUT pin` (R106). -/
def expandPinInput (pin : Nat) : List Instr := [.setMode pin .input]

/-- Step 2 of the boot sequence: the modes of the nine pins (R287). -/
def bootModes (c : Cfg) : List Instr :=
  [.setMode c.pinLed1.val .output, .setMode c.pinLed2.val .output, .setMode c.pinButton.val .input,
   .setMode c.pinRs.val .output, .setMode c.pinStrb.val .output, .setMode c.pinD0.val .output,
   .setMode c.pinD1.val .output, .setMode c.pinD2.val .output, .setMode c.pinD3.val .output]

/-- The boot sequence up to the session; `levels` are the known levels the host writes in step 3 (R287). -/
def bootSequence (c : Cfg) (levels : List (Pin × Level)) : List Instr :=
  .acquire :: bootModes c ++ levels.map (fun pl => .write pl.1.val pl.2) ++ [.lcdInit]

end Sys2Proof.Machine
end

