-- ==== Sys2Proof/Machine/Play.lean ====
section
/-! DEFINITION. The host and the block together (R229 to R236): the host hands on one command word, waits for the command to
complete, reads `resp`, and chooses its next command. What it shows and blinks is a parameter, since the spec gives none of it (R232,
log 13). Where the session stands once the block has faulted, the spec does not say: DESIGN CHOICE (log 19). -/

namespace Sys2Proof.Machine

/-- The host's own feedback, as commands of the block (R230 to R232, R234). -/
structure Feedback where
  /-- After a count, accepted as a digit or refused. -/
  digit : Nat → List Instr
  /-- After scoring: exact and approximate. -/
  score : Nat × Nat → List Instr
  /-- At the end: whether the session was won. -/
  final : Bool → List Instr

/-- A host at its session and the block it drives. -/
structure Play where
  block : State
  session : Session
deriving DecidableEq, Repr

/-- One thing after the other; a stop ends it. -/
def andThen {α β : Type} (o : Host.Outcome α Fault Refusal) (f : α → Host.Outcome β Fault Refusal) :
    Host.Outcome β Fault Refusal :=
  match o with
  | .next a => f a
  | .fault r => .fault r
  | .refused r => .refused r

/-- The host has handed on nothing that the block has not performed: the next word it hands on is the one at `cp` (R33, R236). -/
def HostReady (s : State) : Prop := s.cp = s.stream.length

/-- The word of a command, handed on at the end of the stream (R33, R236). -/
def handOn (i : Instr) (s : State) : State := { s with stream := s.stream ++ [encode i] }

/-- One command of the host: its word handed on, and one step of the block (R236). -/
def issue (i : Instr) (s : State) : Host.Outcome State Fault Refusal := step (handOn i s)

/-- Commands of the host, one at a time and in order; a fault of the block ends them, since it accepts no more (R236, R251). -/
def issueAll : List Instr → State → Host.Outcome State Fault Refusal
  | [], s => .next s
  | i :: is, s => if s.status = .running then andThen (issue i s) (issueAll is) else .next s

/-- The start of a session (R229): the boot sequence. -/
def startBlock (levels : List (Pin × Level)) (s : State) : Host.Outcome State Fault Refusal :=
  issueAll (bootSequence s.cfg levels) s

/-- One attempt at a digit (R206, R230): one WAIT_INPUT, its `resp` read after it has completed and taken as a digit or refused, then
the host's feedback. After a fault of the wait there is no count to read and the session is as before; after a fault of the feedback
the count has been taken (DESIGN CHOICE, log 19). -/
def attempt (f : Feedback) (p : Play) : Host.Outcome Play Fault Refusal :=
  andThen (issue .waitInput p.block) fun t =>
    if t.status = .faulted then .next { p with block := t }
    else
      andThen (issueAll (f.digit t.resp.toNat) t) fun u =>
        .next { block := u, session := takeDigit t.resp.toNat p.session }

/-- `AwaitingGuess`: attempts, one WAIT_INPUT after the other, until the guess is full (R230). `n` bounds how far the definition
follows the host and not the host, who has no retry limit: with the guess not full after `n` attempts the play stands as it then is. -/
def awaitGuess (f : Feedback) : Nat → Play → Host.Outcome Play Fault Refusal
  | 0, p => .next p
  | n + 1, p =>
    if p.session.phase = .awaitingGuess ∧ p.block.status = .running then andThen (attempt f p) (awaitGuess f n) else .next p

/-- `Scoring`, with its rendering (R231). If the rendering faults the block, the session has still gone on to `RoundComplete` (DESIGN
CHOICE, log 19). -/
def scoreAndShow (f : Feedback) (p : Play) : Host.Outcome Play Fault Refusal :=
  if p.session.phase = .scoring ∧ p.block.status = .running then
    andThen (issueAll (f.score (score p.session.secret p.session.guess)) p.block) fun t =>
      .next { block := t, session := scoreRound p.session }
  else .next p

/-- `Won` and `Lost`: the final message and pattern, then RELEASE (R234). -/
def finish (f : Feedback) (p : Play) : Host.Outcome Play Fault Refusal :=
  match p.session.phase with
  | .won => andThen (issueAll (f.final true ++ exitPath) p.block) fun t => .next { p with block := t }
  | .lost => andThen (issueAll (f.final false ++ exitPath) p.block) fun t => .next { p with block := t }
  | .awaitingGuess => .next p
  | .scoring => .next p
  | .roundComplete => .next p

/-- One round: the guess, its score, the count of the attempt, and the end of the session if it is over (R228, R233, R234).
A round whose rendering faulted the block is counted too (DESIGN CHOICE, log 19). -/
def playRound (f : Feedback) (n : Nat) (p : Play) : Host.Outcome Play Fault Refusal :=
  andThen (awaitGuess f n p) fun q =>
    andThen (scoreAndShow f q) fun r => finish f { r with session := completeRound r.session }

end Sys2Proof.Machine
end

