-- ==== Sys2Proof/Machine/Trace.lean ====
section
/-! DEFINITION. What is read off a trace: the pin trace and the LCD bus trace (00_scope section 6.3, R153), and the trace without
the timer agent's steps (R159). -/

namespace Sys2Proof.Machine

/-- The trace without its `X` events: what the sequencer alone has done. -/
def visible (es : List Event) : List Event := es.filter (fun e => decide (e ≠ .expiry))

/-- The latches after a `W` event, from the latches before it (R70, R71). -/
def latchStep (c : Cfg) (latch : Word) : Event → Word
  | .write off v => if off = c.gpsetOff then latch ||| v else if off = c.gpclrOff then latch &&& ~~~v else latch
  | .read _ _ => latch
  | .delay _ => latch
  | .expiry => latch
  | .fault _ => latch

/-- The latches after a trace. -/
def latchAfter (c : Cfg) (latch : Word) (es : List Event) : Word := es.foldl (latchStep c) latch

/-- What the lines carry: the register-select level and the nibble, `PIN_D[i]` carrying bit `i` (R113, R153). -/
def linesOf (c : Cfg) (latch : Word) : Level × Nibble :=
  (levelOf (latch.getLsbD c.pinRs.val),
   BitVec.ofBool (latch.getLsbD c.pinD3.val) ++ BitVec.ofBool (latch.getLsbD c.pinD2.val) ++
     BitVec.ofBool (latch.getLsbD c.pinD1.val) ++ BitVec.ofBool (latch.getLsbD c.pinD0.val))

/-- A falling edge of the strobe line: its latch goes from 1 to 0 (R153). -/
def strobeFalls (c : Cfg) (before after : Word) : Bool :=
  before.getLsbD c.pinStrb.val && !after.getLsbD c.pinStrb.val

/-- The LCD bus trace of a trace that starts with the given latches: the lines at every falling edge of the strobe (R153). It is
what the display receives while the six LCD pins are outputs (U6, log 12). -/
def busTrace (c : Cfg) : Word → List Event → List (Level × Nibble)
  | _, [] => []
  | latch, e :: es =>
    let after := latchStep c latch e
    if strobeFalls c latch after then linesOf c latch :: busTrace c after es else busTrace c after es

/-- The pin trace of one pin: the successive changes of its output latch (00_scope section 6.3). -/
def pinTrace (c : Cfg) (p : Pin) : Word → List Event → List Level
  | _, [] => []
  | latch, e :: es =>
    let after := latchStep c latch e
    if after.getLsbD p.val = latch.getLsbD p.val then pinTrace c p after es
    else levelOf (after.getLsbD p.val) :: pinTrace c p after es

/-- The levels of a pin that the polls in a trace have read: one per read of GPLEV (R195). -/
def polledLevels (c : Cfg) (p : Pin) : List Event → List Level
  | [] => []
  | .read off v :: es => if off = c.gplevOff then levelIn v p :: polledLevels c p es else polledLevels c p es
  | .write _ _ :: es => polledLevels c p es
  | .delay _ :: es => polledLevels c p es
  | .expiry :: es => polledLevels c p es
  | .fault _ :: es => polledLevels c p es

end Sys2Proof.Machine
end

