-- ==== Sys2Proof/Safety.lean ====
section
/-! DEFINITION. The terms claims are stated in: a clean reset, the invariant between commands, a good end, the expected register
trace of each LCD operation, the press count of a sequence of levels. -/

namespace Sys2Proof.Machine

/-- `CleanReset` (R285): the state is that of R281. It fixes no value R281 calls unspecified, and none of the model's own
fields. -/
structure CleanReset (s : State) : Prop where
  cursor : s.cx = 0 ∧ s.cy = 0
  ctl : s.ctl = 0
  loop : s.prev = .low ∧ s.count = 0
  cp : s.cp = 0
  acquired : s.acquired = false
  lcdMode : s.lcdMode = .uninit
  resp : s.resp = 0
  status : s.status = .running
  faultCause : s.faultCause = 0
  timer : s.timerArmed = false ∧ s.timerExpired = false

/-- What holds between two commands, whatever ran before: the cursor in range (R27), the timer disarmed (R205), `lcd_mode` at
no intermediate value (R161 (f)), `fault_cause` 0 exactly while no fault has been entered (R37), the block released at every
end (R36, R140, R250). -/
structure Inv (s : State) : Prop where
  cfg : s.cfg.Valid
  cx : s.cx < s.cfg.lcdCols
  cy : s.cy < s.cfg.lcdRows
  timer : s.timerArmed = false
  lcdMode : s.lcdMode = .uninit ∨ s.lcdMode = .configured
  cause : s.faultCause = 0 ↔ s.status ≠ .faulted
  released : s.status ≠ .running → s.acquired = false

/-- `HwAvailable` (R285): the memory device can be opened at the ACQUIRE. -/
def HwAvailable (s : State) : Prop := s.hwAvailable = true

/-- The ticks of the first `n` moves of an environment. -/
def ticksOf (m : Nat → EnvMove) : Nat → Nat
  | 0 => 0
  | n + 1 => ticksOf m n + (m n).ticks

/-- `TimeAdvances` (R190, R285) of an unending sequence of moves: time advances without bound. -/
def TimeAdvances (m : Nat → EnvMove) : Prop := ∀ t, ∃ n, t ≤ ticksOf m n

/-- `TimerFair` (R194, R285): however far the run has come, the timer agent is willing again later, so an expiry step that stays
enabled is taken after finitely many moves. -/
def TimerFair (m : Nat → EnvMove) : Prop := ∀ n, ∃ k, n ≤ k ∧ (m k).fires = true

/-- The first `n` moves, as a script. -/
def script (m : Nat → EnvMove) (n : Nat) : List EnvMove := (List.range n).map m

/-- `HostWellBehaved` (R285, the last row of R236) of an unending run under a configuration, `stream n` the words handed on by
then: every move of the run is one whole command of the block, or the host handing on further words of its stream, the one thing it
does to the block between two commands (R33, R236). So nothing reaches the register block, the flag or the timer by any other road,
no wait is cancelled and no two commands overlap. -/
def HostWellBehaved (c : Cfg) (stream : Nat → List Word) (run : Nat → Block) : Prop :=
  ∀ n, (StepUnder c (stream n) (run n) (run (n + 1)) ∧ stream (n + 1) = stream n) ∨
    (run (n + 1) = run n ∧ stream n <+: stream (n + 1))

/-- The six LCD pins are in output mode (R150, R288), the premise under which the trace of the latches is what the display receives
(R153, U6). -/
def LcdPinsOutput (s : State) : Prop := ∀ p ∈ s.cfg.pins.take 6, field s p = selOutput

/-- The levels the display module sees on the register-select line and the four data lines: the levels of the pins (R25, R153). -/
def lcdLines (s : State) : Level × Nibble :=
  (levelOf (pinLevel s s.cfg.pinRs),
   BitVec.ofBool (pinLevel s s.cfg.pinD3) ++ BitVec.ofBool (pinLevel s s.cfg.pinD2) ++
     BitVec.ofBool (pinLevel s s.cfg.pinD1) ++ BitVec.ofBool (pinLevel s s.cfg.pinD0))

/-- A run has ended well (R284). -/
structure EndedWell (s : State) : Prop where
  status : s.status = .haltedOk
  acquired : s.acquired = false
  timer : s.timerArmed = false

/-- The block's own state: the environment's inputs that move (`extIn`, `now`), the script, the counter of free values and the
trace set aside. Two states with equal `blockPart` agree on every register, latch, flag and status of the block, on the
configuration, the stream and `hw_available`; a frame is stated as one such equation. -/
def blockPart (s : State) : State := { s with extIn := 0, now := 0, env := [], draws := 0, trace := [] }

/-- Fault entry with cause `code` from `s` to `t`, and nothing else (R250): the trace ends in `F(code)`, `cp` stays. -/
def FaultedWith (code : Byte) (s t : State) : Prop :=
  blockPart t =
      blockPart { s with faultCause := code, status := .faulted, acquired := false, timerArmed := false } ∧
    t.trace = s.trace ++ [.fault code]

/-- A command with the checks of the seven LCD commands other than LCD_INIT: `NotAcquired` first, then `LcdNotInitialized` (R150,
R243, R245, R247). -/
def LcdGuarded (i : Instr) (s : State) : Prop :=
  (s.acquired = false → ∃ t, exec i s = .next t ∧ FaultedWith 18 s t) ∧
    (s.acquired = true → s.lcdMode ≠ .configured → ∃ t, exec i s = .next t ∧ FaultedWith 20 s t)

/-- The cause codes a command may raise (R249). -/
def mayRaise : Instr → List Byte
  | .acquire => [19, 1]
  | .release => []
  | .setMode _ _ => [17, 18]
  | .write _ _ => [17, 18]
  | .read _ => [17, 18]
  | .lcdInit => [18, 2]
  | .lcdCmd _ => [18, 20]
  | .putChar _ => [18, 20]
  | .position _ _ => [18, 20]
  | .lcdClear => [18, 20]
  | .lcdDisplay _ => [18, 20]
  | .lcdCursor _ => [18, 20]
  | .lcdBlink _ => [18, 20]
  | .waitInput => [18]
  | .delay _ => []

/-- The minimum duration of a completed command, in ticks (R301). -/
def minDuration (c : Cfg) (cx : Nat) : Instr → Nat
  | .acquire => 0
  | .release => 0
  | .setMode _ _ => 0
  | .write _ _ => 0
  | .read _ => 0
  | .lcdInit => (if 1 < c.lcdRows then 1800 else 1600) * c.uStrobe + 105 * c.uSettle
  | .lcdCmd _ => 200 * c.uStrobe
  | .putChar _ => (if cx + 1 = c.lcdCols then 400 else 200) * c.uStrobe
  | .position x y => if x < c.lcdCols ∧ y < c.lcdRows then 200 * c.uStrobe else 0
  | .lcdClear => 200 * c.uStrobe
  | .lcdDisplay _ => 200 * c.uStrobe
  | .lcdCursor _ => 200 * c.uStrobe
  | .lcdBlink _ => 200 * c.uStrobe
  | .waitInput => c.tDeadline * c.uDeadline
  | .delay n => n * c.uHost

/-- The command reads a pin, so the levels the environment drives can reach the block through it. -/
def readsPins : Instr → Bool
  | .read _ => true
  | .waitInput => true
  | .acquire => false
  | .release => false
  | .setMode _ _ => false
  | .write _ _ => false
  | .lcdInit => false
  | .lcdCmd _ => false
  | .putChar _ => false
  | .position _ _ => false
  | .lcdClear => false
  | .lcdDisplay _ => false
  | .lcdCursor _ => false
  | .lcdBlink _ => false
  | .delay _ => false

/-- SET_MODE is the one command that writes function-select words (R21). -/
def writesModes : Instr → Bool
  | .setMode _ _ => true
  | .acquire => false
  | .release => false
  | .write _ _ => false
  | .read _ => false
  | .lcdInit => false
  | .lcdCmd _ => false
  | .putChar _ => false
  | .position _ _ => false
  | .lcdClear => false
  | .lcdDisplay _ => false
  | .lcdCursor _ => false
  | .lcdBlink _ => false
  | .waitInput => false
  | .delay _ => false

/-- The commands that write `resp` (R35). -/
def respWriter : Instr → Bool
  | .read _ => true
  | .waitInput => true
  | .acquire => false
  | .release => false
  | .setMode _ _ => false
  | .write _ _ => false
  | .lcdInit => false
  | .lcdCmd _ => false
  | .putChar _ => false
  | .position _ _ => false
  | .lcdClear => false
  | .lcdDisplay _ => false
  | .lcdCursor _ => false
  | .lcdBlink _ => false
  | .delay _ => false

/-- The commands that write `cx` and `cy` (10_state section 3). -/
def cursorWriter : Instr → Bool
  | .putChar _ => true
  | .position _ _ => true
  | .lcdClear => true
  | .lcdInit => true
  | .acquire => false
  | .release => false
  | .setMode _ _ => false
  | .write _ _ => false
  | .read _ => false
  | .lcdCmd _ => false
  | .lcdDisplay _ => false
  | .lcdCursor _ => false
  | .lcdBlink _ => false
  | .waitInput => false
  | .delay _ => false

/-- The commands that write `ctl` (10_state section 3). -/
def ctlWriter : Instr → Bool
  | .lcdDisplay _ => true
  | .lcdCursor _ => true
  | .lcdBlink _ => true
  | .lcdInit => true
  | .acquire => false
  | .release => false
  | .setMode _ _ => false
  | .write _ _ => false
  | .read _ => false
  | .lcdCmd _ => false
  | .putChar _ => false
  | .position _ _ => false
  | .lcdClear => false
  | .waitInput => false
  | .delay _ => false

/-- The pin latches a command may change: the pin of a WRITE, the six LCD pins of an LCD command, none otherwise. -/
def mayChangeLatch (c : Cfg) : Instr → List Nat
  | .write pin _ => [pin]
  | .lcdInit => (c.pins.take 6).map Fin.val
  | .lcdCmd _ => (c.pins.take 6).map Fin.val
  | .putChar _ => (c.pins.take 6).map Fin.val
  | .position _ _ => (c.pins.take 6).map Fin.val
  | .lcdClear => (c.pins.take 6).map Fin.val
  | .lcdDisplay _ => (c.pins.take 6).map Fin.val
  | .lcdCursor _ => (c.pins.take 6).map Fin.val
  | .lcdBlink _ => (c.pins.take 6).map Fin.val
  | .acquire => []
  | .release => []
  | .setMode _ _ => []
  | .read _ => []
  | .waitInput => []
  | .delay _ => []

/-- One step of an agent other than the sequencer (R190, R193). -/
inductive AgentStep where
  | tick
  | pins (levels : Word)
  | expiry
deriving DecidableEq, Repr

/-- The effect of that step; an expiry step that is not enabled is not taken. -/
def agentStep (s : State) : AgentStep → State
  | .tick => tick 1 s
  | .pins levels => pinChange levels s
  | .expiry => timerAgent true s

/-- A run of the other agents between two steps of the sequencer. -/
def runAgents (steps : List AgentStep) (s : State) : State := steps.foldl agentStep s

/-- A list of commands performed one after the other, each completing before the next (R76); a stop ends it. -/
def execAll : List Instr → State → Host.Outcome State Fault Refusal
  | [], s => .next s
  | i :: is, s =>
    match exec i s with
    | .next t => execAll is t
    | .fault r => .fault r
    | .refused r => .refused r

/-! ### Expected register traces, written from the test vectors' form (95_test_vectors L1, L2) -/

/-- The one register write of a pin write. -/
def pinEvent (c : Cfg) (p : Pin) : Level → Event
  | .high => .write c.gpsetOff (pinMask p)
  | .low => .write c.gpclrOff (pinMask p)

/-- The four data-line writes of a nibble (R151). -/
def nibbleEvents (c : Cfg) (n : Nibble) : List Event :=
  [pinEvent c c.pinD0 (levelOf (n.getLsbD 0)), pinEvent c c.pinD1 (levelOf (n.getLsbD 1)),
   pinEvent c c.pinD2 (levelOf (n.getLsbD 2)), pinEvent c c.pinD3 (levelOf (n.getLsbD 3))]

/-- The strobe's two writes and two holds (R152). -/
def strobeEvents (c : Cfg) : List Event :=
  [pinEvent c c.pinStrb .high, .delay (50 * c.uStrobe), pinEvent c c.pinStrb .low, .delay (50 * c.uStrobe)]

/-- The half-byte write (R157): 7 writes, 2 delays. -/
def put4cmdEvents (c : Cfg) (n : Nibble) : List Event :=
  pinEvent c c.pinRs .low :: nibbleEvents c n ++ strobeEvents c

/-- A byte (R156): 13 writes, 4 delays. -/
def byteEvents (c : Cfg) (rs : Level) (b : Byte) : List Event :=
  pinEvent c c.pinRs rs :: nibbleEvents c (highNibble b) ++ strobeEvents c ++ nibbleEvents c (lowNibble b) ++ strobeEvents c

/-- One function-set half-byte with its settle delay (R160). -/
def functionSetEvents (c : Cfg) : List Event := put4cmdEvents c 0x3 ++ [.delay (35 * c.uSettle)]

/-- The whole of LCD_INIT (R160, vector L3). -/
def initEvents (c : Cfg) : List Event :=
  functionSetEvents c ++ functionSetEvents c ++ functionSetEvents c ++ put4cmdEvents c 0x2 ++
    (if 1 < c.lcdRows then byteEvents c .low 0x28 else []) ++
    byteEvents c .low 0x0C ++ byteEvents c .low 0x0C ++ byteEvents c .low 0x0C ++
    byteEvents c .low 0x01 ++ byteEvents c .low 0x06 ++ byteEvents c .low 0x14

/-- The two pairs a byte puts on the LCD bus (R156). -/
def bytePairs (rs : Level) (b : Byte) : List (Level × Nibble) := [(rs, highNibble b), (rs, lowNibble b)]

/-- The pairs of LCD_INIT (R160): 18 for two rows, 16 for one. -/
def initPairs (rows : Nat) : List (Level × Nibble) :=
  [(.low, 0x3), (.low, 0x3), (.low, 0x3), (.low, 0x2)] ++ (if 1 < rows then bytePairs .low 0x28 else []) ++
    bytePairs .low 0x0C ++ bytePairs .low 0x0C ++ bytePairs .low 0x0C ++
    bytePairs .low 0x01 ++ bytePairs .low 0x06 ++ bytePairs .low 0x14

/-- How many register writes a trace holds. -/
def writeCount (es : List Event) : Nat :=
  es.countP (fun e => match e with | .write _ _ => true | _ => false)

/-- The ticks the delays of a trace ask for. -/
def delayTicks : List Event → Nat
  | [] => 0
  | .delay t :: es => t + delayTicks es
  | .write _ _ :: es => delayTicks es
  | .read _ _ :: es => delayTicks es
  | .expiry :: es => delayTicks es
  | .fault _ :: es => delayTicks es

/-! ### Presses -/

/-- The events of a wait, by the moves of its environment (R195, R196), as far as the moves go. One move is one gap. `elapsed` is
the time since arming, `expired` the flag, `settling` says that the gap is the debounce delay after a press (R198). In every other
gap the flag is tested: found set, the wait is over; found clear, the level register is read with the levels the move drives, and
the button's level in it is compared with `prev`. -/
def pollEvents (s : State) (elapsed : Nat) (expired : Bool) (prev : Level) (settling : Bool) : List EnvMove → List Event
  | [] => []
  | g :: rest =>
    let elapsed := elapsed + if settling then max g.ticks (300 * s.cfg.uDebounce) else g.ticks
    let rings := !expired && g.fires && decide (s.cfg.tDeadline * s.cfg.uDeadline ≤ elapsed)
    let word := gplev { s with extIn := g.pins }
    let level := levelIn word s.cfg.pinButton
    (if rings then [.expiry] else []) ++
      if settling then .delay (300 * s.cfg.uDebounce) :: pollEvents s elapsed (expired || rings) .high false rest
      else if expired || rings then []
      else
        .read s.cfg.gplevOff word ::
          if level = .high ∧ prev = .low then pollEvents s elapsed false prev true rest
          else pollEvents s elapsed false level false rest

/-- How many presses a sequence of polled levels holds: its changes into HIGH, starting from `prev` (R195, R198). -/
def presses : Level → List Level → Nat
  | _, [] => 0
  | prev, l :: ls => (if l = .high ∧ prev = .low then 1 else 0) + presses l ls

end Sys2Proof.Machine
end

