-- ==== Sys2Proof/Certificates/Slice0/Obligations.lean ====
section
/-! DEFINITION. The statements for the provers. Each docstring names the rules it formalises. A statement about a command takes the
command between two commands: the block running and the timer disarmed, which `Inv` says and `StepKeepsInv` keeps. -/

open Sys2Proof Sys2Proof.Machine

/-! ### Encoding -/

/-- R100, R101 and the decoding table of 95_test_vectors section 3: words written out there, one or more of every family. -/
def Obligations.SampleWordsDecode : Prop :=
  decode 0x01000000 = .command .acquire ∧ decode 0x02000000 = .command .release ∧
  decode 0x1000010D = .command (.setMode 13 .output) ∧ decode 0x10000013 = .command (.setMode 19 .input) ∧
  decode 0x11000105 = .command (.write 5 .high) ∧ decode 0x12000013 = .command (.read 19) ∧
  decode 0x20000000 = .command .lcdInit ∧ decode 0x22000041 = .command (.putChar 0x41) ∧
  decode 0x23000103 = .command (.position 3 1) ∧ decode 0x25000001 = .command (.lcdDisplay true) ∧
  decode 0x30000000 = .command .waitInput ∧ decode 0x40FFFFFF = .command (.delay 16777215) ∧
  decode 0x00000000 = .reserved (.unassignedOpcode 0) ∧ decode 0x11000205 = .reserved (.mustBeZero 0x11)

/-- R92 to R101: every well-formed command, with every operand its fields admit, is read back from its word. -/
def Obligations.DecodeOfEncode : Prop :=
  ∀ i : Instr, i.wellFormed = true → decode (encode i) = .command i

/-- R91, R99, R101: a word that decodes to a command is that command's word, bit for bit, and its operands fit their fields. -/
def Obligations.EncodeOfDecode : Prop :=
  ∀ (w : Word) (i : Instr), decode w = .command i → i.wellFormed = true ∧ encode i = w

/-- R101 with R100: a word that matches a row of the opcode map is exactly one command, of that row, whose operands are the word's
fields (its word is `w`); a word that matches no row is reserved; no word matches two rows. -/
def Obligations.DecodeFollowsOpcodeMap : Prop :=
  (∀ (w : Word) (r : Word × Word), r ∈ opcodeRows → matchesRow w r = true →
    ∃ i, decode w = .command i ∧ rowOf i = r ∧ i.wellFormed = true ∧ encode i = w) ∧
  (∀ w : Word, (∀ r ∈ opcodeRows, matchesRow w r = false) → ∃ r, decode w = .reserved r) ∧
  (∀ (w : Word) (r q : Word × Word), r ∈ opcodeRows → q ∈ opcodeRows →
    matchesRow w r = true → matchesRow w q = true → r = q)

/-! ### Fetch, end, reset -/

/-- R33, R36, R101: while the block runs, the word at `cp` of the host's stream is decoded and performed. -/
def Obligations.StepRunsTheDecodedCommand : Prop :=
  ∀ (s : State) (w : Word) (i : Instr), s.status = .running → s.stream[s.cp]? = some w → decode w = .command i →
    step s = exec i s

/-- R102, R242: executing a reserved word raises `IllegalCommand`, whatever `acquired` is, and does nothing else. -/
def Obligations.ReservedWordFaults : Prop :=
  ∀ (s : State) (w : Word) (r : Reserved), s.status = .running → s.timerArmed = false → s.stream[s.cp]? = some w →
    decode w = .reserved r → ∃ t, step s = .next t ∧ FaultedWith 16 s t

/-- R36, R251, R284: in HALTED_OK and FAULTED no command is performed and no step is taken; with the stream used up the block is
idle. -/
def Obligations.EndedBlockTakesNoStep : Prop :=
  ∀ (s : State) (i : Instr),
    (s.status = .haltedOk → exec i s = .fault .haltedOk ∧ step s = .fault .haltedOk) ∧
    (s.status = .faulted → exec i s = .fault .faulted ∧ step s = .fault .faulted) ∧
    (s.status = .running → s.stream[s.cp]? = none → step s = .fault .idle)

/-- R281: the state after reset has every value R281 states. The values of the fields R281 calls unspecified are the model's
(log 6) and are not claimed here. -/
def Obligations.ResetIsClean : Prop := CleanReset State.reset

/-- R280, R281, R283: reset from any state gives a clean state and writes no function-select word, no latch and no pin. That it
leaves `now`, `hw_available` and the configuration as they are is the model's reading (log 16). -/
def Obligations.RestartLeavesTheRegisterBlock : Prop :=
  ∀ (s : State) (stream : List Word),
    CleanReset (restart stream s) ∧ (restart stream s).gpfsel = s.gpfsel ∧ (restart stream s).latch = s.latch ∧
      (restart stream s).extIn = s.extIn ∧ (restart stream s).now = s.now ∧
      (restart stream s).hwAvailable = s.hwAvailable ∧ (restart stream s).cfg = s.cfg

/-- The invariant holds in every clean reset state with a valid configuration, `State.reset` among them (its configuration is the
model's choice, log 4). -/
def Obligations.CleanResetHasInv : Prop :=
  (∀ s : State, CleanReset s → s.cfg.Valid → Inv s) ∧ Inv State.reset

/-! ### Whole-machine rules -/

/-- R27, R37, R161 (f), R205 with R140 and R250: between commands the cursor is in range, the timer is disarmed, `lcd_mode` holds
no intermediate value, `fault_cause` is 0 exactly while no fault was entered, an ended block is released: every step keeps it. -/
def Obligations.StepKeepsInv : Prop :=
  ∀ s t : State, Inv s → step s = .next t → Inv t

/-- R250: a command that ends faulted has done nothing but fault entry, and the exit status is the cause. -/
def Obligations.FaultsArePrecise : Prop :=
  ∀ s t : State, s.timerArmed = false → step s = .next t → t.status = .faulted →
    FaultedWith t.faultCause s t ∧ exitStatus t = some t.faultCause

/-- R249: which command can raise what, and that each listed cause can occur; a reserved word raises `IllegalCommand` only. -/
def Obligations.OnlyTheListedFaults : Prop :=
  (∀ (i : Instr) (s t : State), exec i s = .next t → t.status = .faulted → t.faultCause ∈ mayRaise i) ∧
  (∀ s t : State, reservedWord s = .next t → t.status = .faulted ∧ t.faultCause = 16) ∧
  (∀ (i : Instr) (c : Byte), c ∈ mayRaise i →
    ∃ (j : Instr) (s t : State), rowOf j = rowOf i ∧ exec j s = .next t ∧ t.status = .faulted ∧ t.faultCause = c)

/-- R33: a command that completes advances `cp` by one; RELEASE and a fault leave it. -/
def Obligations.CommandPointerAdvances : Prop :=
  ∀ (i : Instr) (s t : State), exec i s = .next t →
    (t.status = .running → t.cp = s.cp + 1) ∧ (t.status ≠ .running → t.cp = s.cp) ∧
    (t.status = .haltedOk ↔ i = .release)

/-- R80, R46 and R7: no step writes the host's stream or the configuration, nor `hw_available` (R43); so a step is the step relation
over states without those parameters, taken at the state's. -/
def Obligations.StreamAndConfigurationNeverChange : Prop :=
  ∀ s : State,
    (∀ t, step s = .next t → t.stream = s.stream ∧ t.cfg = s.cfg ∧ t.hwAvailable = s.hwAvailable) ∧
    step s = andThen (stepUnder s.cfg s.stream s.toBlock) (fun b => .next (b.under s.cfg s.stream))

/-- The frame of the register block over all commands: only SET_MODE writes function-select words (R21), and never words 4 and 5;
only WRITE and the LCD commands write latches, and only their own pins' (R22, R70, R71). -/
def Obligations.RegisterBlockFrame : Prop :=
  ∀ (i : Instr) (s t : State), exec i s = .next t →
    (writesModes i = false → t.gpfsel = s.gpfsel) ∧ t.gpfsel[4] = s.gpfsel[4] ∧ t.gpfsel[5] = s.gpfsel[5] ∧
    (∀ p : Pin, p.val ∉ mayChangeLatch s.cfg i → t.latch.getLsbD p.val = s.latch.getLsbD p.val)

/-- The writers columns of 10_state section 3, R29 and R35: which commands may change each working register, `lcd_mode` and
`resp`. -/
def Obligations.RegisterWriters : Prop :=
  ∀ (i : Instr) (s t : State), exec i s = .next t →
    (respWriter i = false → t.resp = s.resp) ∧
    (cursorWriter i = false → t.cx = s.cx ∧ t.cy = s.cy) ∧
    (ctlWriter i = false → t.ctl = s.ctl) ∧
    (i ≠ .lcdInit → t.lcdMode = s.lcdMode) ∧
    (i ≠ .waitInput → t.prev = s.prev ∧ t.count = s.count ∧ t.timerFireAt = s.timerFireAt)

/-- R190, R193 and R200: any run of ticks, pin changes and expiry steps between two steps of the sequencer, if it lasts as long as
the sequencer is held, is one gap of the model for some move of the script. -/
def Obligations.GapCoversEveryAgentRun : Prop :=
  ∀ (s : State) (steps : List AgentStep) (rest : List EnvMove) (atLeast : Nat), atLeast ≤ steps.count .tick →
    ∃ m : EnvMove, gapWith atLeast false { s with env := m :: rest } = { runAgents steps s with env := rest }

/-- R39, R297: between commands no command but WAIT_INPUT changes the flag, and none leaves the timer armed. -/
def Obligations.FlagDiscipline : Prop :=
  ∀ (i : Instr) (s t : State), s.timerArmed = false → exec i s = .next t →
    t.timerArmed = false ∧ (i ≠ .waitInput → t.timerExpired = s.timerExpired)

/-- R159, R254: what the environment does (its script, its levels, its clock) cannot be seen in the effect of a command that reads
no pin, nor in what it puts in the trace. -/
def Obligations.EnvironmentIsInvisible : Prop :=
  ∀ (i : Instr) (s r t u : State), readsPins i = false → s.cfg.Valid → s.timerArmed = false →
    blockPart r = blockPart s →
    exec i s = .next t → exec i r = .next u →
      blockPart u = blockPart t ∧ ∃ es, t.trace = s.trace ++ es ∧ u.trace = r.trace ++ es

/-- R301: the minimum duration of each completed command. -/
def Obligations.MinimumDurations : Prop :=
  ∀ (i : Instr) (s t : State), exec i s = .next t → t.status ≠ .faulted →
    s.now + minDuration s.cfg s.cx i ≤ t.now

/-! ### Register I/O -/

/-- R130. -/
def Obligations.AcquireEffect : Prop :=
  ∀ s : State, s.status = .running → s.timerArmed = false →
    (s.acquired = true → ∃ t, exec .acquire s = .next t ∧ FaultedWith 19 s t) ∧
    (s.acquired = false → s.hwAvailable = false → ∃ t, exec .acquire s = .next t ∧ FaultedWith 1 s t) ∧
    (s.acquired = false → s.hwAvailable = true → ∃ t, exec .acquire s = .next t ∧
      blockPart t = blockPart { s with acquired := true, cp := s.cp + 1 } ∧ t.trace = s.trace)

/-- R140: RELEASE is legal with or without a mapping, ends the run well, leaves `cp`, every field and every latch. -/
def Obligations.ReleaseEffect : Prop :=
  ∀ s : State, s.status = .running →
    (∃ t, exec .release s = .next t ∧ EndedWell t ∧ exitStatus t = some 0) ∧
    (s.timerArmed = false → ∃ t, exec .release s = .next t ∧
      blockPart t = blockPart { s with acquired := false, timerArmed := false, status := .haltedOk } ∧
      t.trace = s.trace)

/-- R131: the checks, the one read and the one write of word `pin div 10`, the field at `3 * (pin mod 10)` replaced. -/
def Obligations.SetModeEffect : Prop :=
  ∀ (s : State) (pin : Nat) (dir : Direction), s.status = .running → s.timerArmed = false →
    (32 ≤ pin → ∃ t, exec (.setMode pin dir) s = .next t ∧ FaultedWith 17 s t) ∧
    (pin < 32 → s.acquired = false → ∃ t, exec (.setMode pin dir) s = .next t ∧ FaultedWith 18 s t) ∧
    (∀ k : Fin 6, pin < 32 → k.val = pin / 10 → s.acquired = true → ∃ (t : State) (w' : Word),
      exec (.setMode pin dir) s = .next t ∧
      w' = (s.gpfsel[k] &&& ~~~(0b111#32 <<< (3 * (pin % 10)))) |||
        ((if dir = .output then 0b001#32 else 0b000#32) <<< (3 * (pin % 10))) ∧
      blockPart t = blockPart { s with gpfsel := s.gpfsel.set k.val w', cp := s.cp + 1 } ∧
      t.trace = s.trace ++ [.read s.cfg.fselOff[k] s.gpfsel[k], .write s.cfg.fselOff[k] w'])

/-- R134 and R132 (d): after SET_MODE the pin's field is the selector, every other pin's field and bits [31:30] of every word are
as they were. -/
def Obligations.SetModePreservesNeighbours : Prop :=
  ∀ (s t : State) (pin : Pin) (dir : Direction), s.acquired = true → exec (.setMode pin.val dir) s = .next t →
    field t pin = (if dir = .output then 0b001#3 else 0b000#3) ∧
    (∀ q : Pin, q ≠ pin → field t q = field s q) ∧
    (∀ k : Fin 6, (t.gpfsel[k]).extractLsb' 30 2 = (s.gpfsel[k]).extractLsb' 30 2)

/-- R287's last remark, derived from R134: SET_MODEs of two different pins commute in their effect on the function-select words. -/
def Obligations.SetModesCommute : Prop :=
  ∀ (s t u : State) (p q : Pin) (d e : Direction), p ≠ q → s.acquired = true →
    execAll [.setMode p.val d, .setMode q.val e] s = .next t →
    execAll [.setMode q.val e, .setMode p.val d] s = .next u → t.gpfsel = u.gpfsel

/-- R135: the checks, then one write of `1 << pin` to the set or to the clear register, and no read. -/
def Obligations.WriteEffect : Prop :=
  ∀ (s : State) (pin : Nat) (level : Level), s.status = .running → s.timerArmed = false →
    (32 ≤ pin → ∃ t, exec (.write pin level) s = .next t ∧ FaultedWith 17 s t) ∧
    (pin < 32 → s.acquired = false → ∃ t, exec (.write pin level) s = .next t ∧ FaultedWith 18 s t) ∧
    (pin < 32 → s.acquired = true → level = .high → ∃ t, exec (.write pin level) s = .next t ∧
      blockPart t = blockPart { s with latch := s.latch ||| (1#32 <<< pin), cp := s.cp + 1 } ∧
      t.trace = s.trace ++ [.write s.cfg.gpsetOff (1#32 <<< pin)]) ∧
    (pin < 32 → s.acquired = true → level = .low → ∃ t, exec (.write pin level) s = .next t ∧
      blockPart t = blockPart { s with latch := s.latch &&& ~~~(1#32 <<< pin), cp := s.cp + 1 } ∧
      t.trace = s.trace ++ [.write s.cfg.gpclrOff (1#32 <<< pin)])

/-- R135, R137: WRITE gives the pin's latch the level and no other latch changes. -/
def Obligations.WriteSetsOneLatch : Prop :=
  ∀ (s t : State) (pin : Pin) (level : Level), s.acquired = true → exec (.write pin.val level) s = .next t →
    t.latch.getLsbD pin.val = decide (level = .high) ∧
    ∀ q : Pin, q ≠ pin → t.latch.getLsbD q.val = s.latch.getLsbD q.val

/-- R138: the checks, one read of the level register, `resp` the pin's bit of it, nothing else. The word read is the one of the
instant of the read, so it is stated by the levels the environment drives in the state after. -/
def Obligations.ReadEffect : Prop :=
  ∀ (s : State) (pin : Nat), s.status = .running → s.timerArmed = false →
    (32 ≤ pin → ∃ t, exec (.read pin) s = .next t ∧ FaultedWith 17 s t) ∧
    (pin < 32 → s.acquired = false → ∃ t, exec (.read pin) s = .next t ∧ FaultedWith 18 s t) ∧
    (pin < 32 → s.acquired = true → ∃ t, exec (.read pin) s = .next t ∧
      blockPart t = blockPart { s with resp := if (gplev t).getLsbD pin then 1 else 0, cp := s.cp + 1 } ∧
      t.trace = s.trace ++ [.read s.cfg.gplevOff (gplev t)])

/-- R25: bit `p` of what a read of the level register returns is the latch for a pin whose field is SEL_OUTPUT, and the outside
level otherwise, the fields 0b010 to 0b111 among them; the read changes nothing but the trace, and no write is admitted. -/
def Obligations.LevelRegisterView : Prop :=
  ∀ (s : State) (p : Pin),
    (field s p = 0b001#3 → (readValue s .gplev).getLsbD p.val = s.latch.getLsbD p.val) ∧
    (field s p ≠ 0b001#3 → (readValue s .gplev).getLsbD p.val = s.extIn.getLsbD p.val) ∧
    readNow .gplev s = { s with trace := s.trace ++ [.read s.cfg.gplevOff (readValue s .gplev)] } ∧
    (s.cfg.Valid → ∀ v, memWrite s.cfg.gplevOff v s = none)

/-- R76 (a): a READ after a WRITE to the same output pin returns the written level. -/
def Obligations.ReadAfterWriteOfOutputPin : Prop :=
  ∀ (s : State) (p : Pin) (level : Level), s.status = .running → s.acquired = true → field s p = 0b001#3 →
    ∃ t, execAll [.write p.val level, .read p.val] s = .next t ∧ t.resp = (if level = .high then 1 else 0)

/-- R67: by offset, exactly five kinds of request have a step, and none without the mapping. -/
def Obligations.AdmittedAccesses : Prop :=
  ∀ (s : State) (off : Nat) (v : Word),
    ((memRead off s).isSome = true ↔
      s.acquired = true ∧ (off = s.cfg.gplevOff ∨ ∃ k : Fin 6, k.val < 4 ∧ off = s.cfg.fselOff[k])) ∧
    ((memWrite off v s).isSome = true ↔
      s.acquired = true ∧
        (off = s.cfg.gpsetOff ∨ off = s.cfg.gpclrOff ∨ ∃ k : Fin 6, k.val < 4 ∧ off = s.cfg.fselOff[k]))

/-- R69, R70, R71: what a write at each offset does: a function-select word becomes the value, the set register sets and the clear
register clears the latches of its 1 bits, and nothing else of the block changes. -/
def Obligations.DeviceWriteRules : Prop :=
  ∀ (s t : State) (off : Nat) (v : Word), s.cfg.Valid → s.timerArmed = false → memWrite off v s = some t →
    t.trace = s.trace ++ [.write off v] ∧
    (off = s.cfg.gpsetOff → blockPart t = blockPart { s with latch := t.latch } ∧
      ∀ p : Pin, t.latch.getLsbD p.val = if v.getLsbD p.val then true else s.latch.getLsbD p.val) ∧
    (off = s.cfg.gpclrOff → blockPart t = blockPart { s with latch := t.latch } ∧
      ∀ p : Pin, t.latch.getLsbD p.val = if v.getLsbD p.val then false else s.latch.getLsbD p.val) ∧
    (∀ k : Fin 6, off = s.cfg.fselOff[k] → blockPart t = blockPart { s with gpfsel := s.gpfsel.set k.val v })

/-! ### LCD driver -/

/-- R162: the checks, one command transmission; the cursor and `ctl` stay, whatever the byte is. -/
def Obligations.LcdCmdEffect : Prop :=
  ∀ (s : State) (b : Byte), s.status = .running → s.timerArmed = false → s.cfg.Valid →
    LcdGuarded (.lcdCmd b) s ∧
    (s.acquired = true → s.lcdMode = .configured → ∃ t, exec (.lcdCmd b) s = .next t ∧
      blockPart t = blockPart { s with latch := latchAfter s.cfg s.latch (byteEvents s.cfg .low b), cp := s.cp + 1 } ∧
      t.trace = s.trace ++ byteEvents s.cfg .low b)

/-- R163: the character as data, the cursor's advance with its two wraps, the set-address of the new line on a wrap. -/
def Obligations.PutCharEffect : Prop :=
  ∀ (s : State) (b : Byte), s.status = .running → s.timerArmed = false → s.cfg.Valid →
    LcdGuarded (.putChar b) s ∧
    (s.acquired = true → s.lcdMode = .configured → s.cx + 1 ≠ s.cfg.lcdCols → ∃ t, exec (.putChar b) s = .next t ∧
      blockPart t = blockPart { s with
        latch := latchAfter s.cfg s.latch (byteEvents s.cfg .high b), cx := s.cx + 1, cp := s.cp + 1 } ∧
      t.trace = s.trace ++ byteEvents s.cfg .high b) ∧
    (s.acquired = true → s.lcdMode = .configured → s.cx + 1 = s.cfg.lcdCols → ∃ (t : State) (row : Nat) (es : List Event),
      exec (.putChar b) s = .next t ∧ row = (if s.cy + 1 = s.cfg.lcdRows then 0 else s.cy + 1) ∧
      es = byteEvents s.cfg .high b ++ byteEvents s.cfg .low (if row = 0 then 0x80 else 0xC0) ∧
      blockPart t = blockPart { s with latch := latchAfter s.cfg s.latch es, cx := 0, cy := row, cp := s.cp + 1 } ∧
      t.trace = s.trace ++ es)

/-- R164 with R114: outside the geometry nothing but `cp`; inside, the set-address byte `0x80 + x` or `0xC0 + x` and the cursor. -/
def Obligations.PositionEffect : Prop :=
  ∀ (s : State) (x y : Nat), s.status = .running → s.timerArmed = false → s.cfg.Valid →
    LcdGuarded (.position x y) s ∧
    (s.acquired = true → s.lcdMode = .configured → (s.cfg.lcdCols ≤ x ∨ s.cfg.lcdRows ≤ y) →
      ∃ t, exec (.position x y) s = .next t ∧ blockPart t = blockPart { s with cp := s.cp + 1 } ∧ t.trace = s.trace) ∧
    (s.acquired = true → s.lcdMode = .configured → x < s.cfg.lcdCols → y < s.cfg.lcdRows →
      ∃ (t : State) (es : List Event), exec (.position x y) s = .next t ∧
        es = byteEvents s.cfg .low (BitVec.ofNat 8 ((if y = 0 then 0x80 else 0xC0) + x)) ∧
        blockPart t = blockPart { s with latch := latchAfter s.cfg s.latch es, cx := x, cy := y, cp := s.cp + 1 } ∧
        t.trace = s.trace ++ es)

/-- R165: one command byte 0x01, the cursor at (0, 0). -/
def Obligations.LcdClearEffect : Prop :=
  ∀ s : State, s.status = .running → s.timerArmed = false → s.cfg.Valid →
    LcdGuarded .lcdClear s ∧
    (s.acquired = true → s.lcdMode = .configured → ∃ t, exec .lcdClear s = .next t ∧
      blockPart t = blockPart { s with
        latch := latchAfter s.cfg s.latch (byteEvents s.cfg .low 0x01), cx := 0, cy := 0, cp := s.cp + 1 } ∧
      t.trace = s.trace ++ byteEvents s.cfg .low 0x01)

/-- R166 to R169: LCD_DISPLAY, LCD_CURSOR and LCD_BLINK set bit 2, 1 or 0 of `ctl`, keep the other two, and send `0x08 | ctl`. -/
def Obligations.DisplayControlEffect : Prop :=
  ∀ (s : State) (v : Bool) (i : Instr) (bit : Nat), s.status = .running → s.timerArmed = false → s.cfg.Valid →
    (i = .lcdDisplay v ∧ bit = 2 ∨ i = .lcdCursor v ∧ bit = 1 ∨ i = .lcdBlink v ∧ bit = 0) →
    LcdGuarded i s ∧
    (s.acquired = true → s.lcdMode = .configured → ∃ t, exec i s = .next t ∧
      (∀ j : Nat, j < 3 → t.ctl.getLsbD j = if j = bit then v else s.ctl.getLsbD j) ∧
      blockPart t = blockPart { s with
        latch := latchAfter s.cfg s.latch (byteEvents s.cfg .low (0x08#8 ||| t.ctl.setWidth 8))
        ctl := t.ctl
        cp := s.cp + 1 } ∧
      t.trace = s.trace ++ byteEvents s.cfg .low (0x08#8 ||| t.ctl.setWidth 8))

/-- R160: the two checks, the whole handshake, the driver's state at its end; the register writes it takes and the pairs of the LCD
bus trace, from any latches (vectors L3 and L4). The bus trace is that of the latches, which is what the display receives while
the six LCD pins are outputs (R153, U6, log 12). -/
def Obligations.LcdInitEffect : Prop :=
  ∀ s : State, s.status = .running → s.timerArmed = false → s.cfg.gpsetOff ≠ s.cfg.gpclrOff →
    (s.acquired = false → ∃ t, exec .lcdInit s = .next t ∧ FaultedWith 18 s t) ∧
    (s.acquired = true → s.cfg.lcdBits ≠ 4 → ∃ t, exec .lcdInit s = .next t ∧ FaultedWith 2 s t) ∧
    (s.acquired = true → s.cfg.lcdBits = 4 → ∃ t, exec .lcdInit s = .next t ∧
      blockPart t = blockPart { s with
        latch := latchAfter s.cfg s.latch (initEvents s.cfg)
        lcdMode := .configured
        ctl := 0b100
        cx := 0
        cy := 0
        cp := s.cp + 1 } ∧
      t.trace = s.trace ++ initEvents s.cfg ∧
      writeCount (initEvents s.cfg) = (if 1 < s.cfg.lcdRows then 119 else 106) ∧
      (initPairs s.cfg.lcdRows).length = (if 1 < s.cfg.lcdRows then 18 else 16) ∧
      (s.cfg.Valid → busTrace s.cfg s.latch (initEvents s.cfg) = initPairs s.cfg.lcdRows))

/-- R156 with R153 and R159: `send_byte` makes 13 register writes and 4 delays and no other visible event, leaves the rest of the
block alone, and adds exactly two pairs to the LCD bus trace, high nibble first, with the register-select level asked for. This
holds from any latches and with the timer in any state: an expiry step in the middle changes nothing of it. The bus trace is that
of the latches, which is what the display receives while the six LCD pins are outputs (R153, U6, log 12). -/
def Obligations.SendByte : Prop :=
  ∀ (s : State) (rs : Level) (b : Byte), s.cfg.Valid →
    ∃ (t : State) (es : List Event), t = sendByte rs b s ∧ t.trace = s.trace ++ es ∧
      visible es = byteEvents s.cfg rs b ∧ writeCount es = 13 ∧
      busTrace s.cfg s.latch es = [(rs, b.extractLsb' 4 4), (rs, b.extractLsb' 0 4)] ∧
      t.latch = latchAfter s.cfg s.latch (byteEvents s.cfg rs b) ∧
      blockPart t = blockPart { s with latch := t.latch, timerArmed := t.timerArmed, timerExpired := t.timerExpired }

/-- R157: `put4cmd` makes 7 register writes and 2 delays and adds exactly one pair `(0, n)` to the LCD bus trace, that of the
latches (R153, U6, log 12). -/
def Obligations.Put4cmd : Prop :=
  ∀ (s : State) (n : Nibble), s.cfg.Valid →
    ∃ (t : State) (es : List Event), t = put4cmd n s ∧ t.trace = s.trace ++ es ∧
      visible es = put4cmdEvents s.cfg n ∧ writeCount es = 7 ∧ busTrace s.cfg s.latch es = [(.low, n)] ∧
      t.latch = latchAfter s.cfg s.latch (put4cmdEvents s.cfg n) ∧
      blockPart t = blockPart { s with latch := t.latch, timerArmed := t.timerArmed, timerExpired := t.timerExpired }

/-- R174: after `n` PUT_CHARs from the cursor (0, 0) the cursor is at column `n mod cols`, row `(n div cols) mod rows`. -/
def Obligations.CursorWrap : Prop :=
  ∀ (s : State) (m : List Byte), s.status = .running → s.acquired = true → s.lcdMode = .configured → s.cfg.Valid →
    s.cx = 0 → s.cy = 0 →
    ∃ t, execAll (m.map .putChar) s = .next t ∧ t.cx = m.length % s.cfg.lcdCols ∧
      t.cy = m.length / s.cfg.lcdCols % s.cfg.lcdRows

/-- R171, R172: the commands of PRINT. A message that fits is one POSITION and its characters. One that does not is
`L - LCD_COLS + 1` frames of `LCD_COLS + 2` commands, the last without the pause: frame `k` is the POSITION, the characters of the
window from `k`, and the pause unless it is the last; there is no other command. The last frame is the message's tail. -/
def Obligations.PrintExpansion : Prop :=
  ∀ (c : Cfg) (m : List Byte) (row : Nat),
    (m.length ≤ c.lcdCols → expandPrint c m row = .position 0 row :: m.map .putChar) ∧
    (c.lcdCols < m.length →
      (expandPrint c m row).length =
        (m.length - c.lcdCols + 1) + (m.length - c.lcdCols + 1) * c.lcdCols + (m.length - c.lcdCols) ∧
      (∀ k : Nat, k ≤ m.length - c.lcdCols →
        ((expandPrint c m row).drop (k * (c.lcdCols + 2))).take (c.lcdCols + 2) =
          .position 0 row :: ((m.drop k).take c.lcdCols).map .putChar ++
            (if k < m.length - c.lcdCols then [.delay c.tScroll] else [])) ∧
      (expandPrint c m row).count (.position 0 row) = m.length - c.lcdCols + 1 ∧
      (expandPrint c m row).countP (fun i => match i with | .putChar _ => true | _ => false) =
        (m.length - c.lcdCols + 1) * c.lcdCols ∧
      (expandPrint c m row).count (.delay c.tScroll) = m.length - c.lcdCols ∧
      ∃ before, expandPrint c m row = before ++ .position 0 row :: (m.drop (m.length - c.lcdCols)).map .putChar)

/-- R171, R172: where PRINT leaves the cursor. -/
def Obligations.PrintCursor : Prop :=
  ∀ (s : State) (m : List Byte) (row : Nat), s.status = .running → s.acquired = true → s.lcdMode = .configured →
    s.cfg.Valid → row < s.cfg.lcdRows →
    ∃ t, execAll (expandPrint s.cfg m row) s = .next t ∧
      (m.length < s.cfg.lcdCols → t.cx = m.length ∧ t.cy = row) ∧
      (s.cfg.lcdCols ≤ m.length → t.cx = 0 ∧ t.cy = (row + 1) % s.cfg.lcdRows)

/-! ### Timed input -/

/-- R192, R193: arming is one step that clears the flag, sets the deadline and arms; the timer agent sets the flag and disarms
exactly when the timer is armed, its deadline has come and it is willing, and does nothing otherwise. -/
def Obligations.TimerSteps : Prop :=
  ∀ s : State,
    timerArm s = { s with
      timerExpired := false, timerFireAt := s.now + s.cfg.tDeadline * s.cfg.uDeadline, timerArmed := true } ∧
    (s.timerArmed = true → s.timerFireAt ≤ s.now →
      timerAgent true s = { s with timerExpired := true, timerArmed := false, trace := s.trace ++ [.expiry] }) ∧
    (s.timerArmed = false ∨ s.now < s.timerFireAt → timerAgent true s = s) ∧
    timerAgent false s = s

/-- R195, R196, R197, R199: WAIT_INPUT without the mapping faults; with it, it ends after the deadline with the flag set and the timer
disarmed, having written no pin; its events are polls of the level register, one debounce delay per press, and one expiry; `count`
is the number of changes into HIGH in the polled levels, `resp` that number in 32 bits, `prev` the last level polled. Every loop
round that finds the flag clear reads the level of the button at that instant: as far as the script of moves goes (its first two
are the gaps before the command and before arming, log 2) the events are those `pollEvents` gives, and every poll, of a free move
too, is the level register under some outside levels. That the wait ends at all rests on `TimeAdvances` and `TimerFair`, which the
model's waits have built in (log 3, `WaitEndsUnderFairness`). -/
def Obligations.WaitInputEffect : Prop :=
  ∀ s : State, s.status = .running → s.timerArmed = false →
    (s.acquired = false → ∃ t, exec .waitInput s = .next t ∧ FaultedWith 18 s t) ∧
    (s.acquired = true → ∃ (t : State) (es : List Event) (levels : List Level),
      exec .waitInput s = .next t ∧ t.trace = s.trace ++ es ∧ levels = polledLevels s.cfg s.cfg.pinButton es ∧
      blockPart t = blockPart { s with
        prev := levels.getLastD .low
        count := presses .low levels
        resp := BitVec.ofNat 32 (presses .low levels)
        timerExpired := true
        timerFireAt := t.timerFireAt
        cp := s.cp + 1 } ∧
      s.now + s.cfg.tDeadline * s.cfg.uDeadline ≤ t.timerFireAt ∧ t.timerFireAt ≤ t.now ∧
      es.count .expiry = 1 ∧ es.count (.delay (300 * s.cfg.uDebounce)) = presses .low levels ∧
      (∀ e ∈ es, e = .expiry ∨ e = .delay (300 * s.cfg.uDebounce) ∨
        ∃ pins, e = .read s.cfg.gplevOff (gplev { s with extIn := pins })) ∧
      pollEvents s 0 false .low false (s.env.drop 2) <+: es)

/-- R196, R198: after the expiry step a wait reads the pin no more, so a press that begins after expiry is never observed. -/
def Obligations.NoPollAfterExpiry : Prop :=
  ∀ s t : State, s.timerArmed = false → s.acquired = true → exec .waitInput s = .next t →
    ∃ before after, t.trace = s.trace ++ before ++ .expiry :: after ∧
      (∀ e ∈ before, e ≠ .expiry) ∧ (∀ e ∈ after, e = .delay (300 * s.cfg.uDebounce)) ∧ after.length ≤ 1

/-- R202: polls that all read LOW give 0; one clean press, LOW then HIGH then LOW, gives 1 wherever it stands among the polls. -/
def Obligations.CleanPressCounts : Prop :=
  ∀ (s t : State) (es : List Event), s.timerArmed = false → s.acquired = true → exec .waitInput s = .next t →
    t.trace = s.trace ++ es →
    ((∀ l ∈ polledLevels s.cfg s.cfg.pinButton es, l = .low) → t.resp = 0) ∧
    (∀ a b c : Nat, polledLevels s.cfg s.cfg.pinButton es =
        List.replicate a .low ++ List.replicate (b + 1) .high ++ List.replicate c .low → t.resp = 1)

/-- R203: a button pin in output mode is polled as its latch, so the count is 0 with the latch 0, and with the latch 1 it is 1 as soon
as there is a poll at all. -/
def Obligations.ButtonAsOutputPin : Prop :=
  ∀ (s t : State) (es : List Event), s.timerArmed = false → s.acquired = true → exec .waitInput s = .next t →
    t.trace = s.trace ++ es → field s s.cfg.pinButton = 0b001#3 →
    (s.latch.getLsbD s.cfg.pinButton.val = false → t.count = 0) ∧
    (s.latch.getLsbD s.cfg.pinButton.val = true →
      t.count = min 1 (polledLevels s.cfg s.cfg.pinButton es).length)

/-- R201, R200: DELAY needs no mapping, lasts at least `n` host time units, leaves `D(n * U_HOST)` and nothing else. -/
def Obligations.DelayEffect : Prop :=
  ∀ (s : State) (n : Nat), s.status = .running → s.timerArmed = false →
    ∃ t, exec (.delay n) s = .next t ∧ blockPart t = blockPart { s with cp := s.cp + 1 } ∧
      t.trace = s.trace ++ [.delay (n * s.cfg.uHost)] ∧ s.now + n * s.cfg.uHost ≤ t.now

/-! ### The host beside the block -/

/-- R225: the score's bounds, when it is full, and that swapping the sequences changes neither number. -/
def Obligations.ScoreBounds : Prop :=
  ∀ secret guess : List Nat, secret.length = guess.length →
    (score secret guess).1 + (score secret guess).2 ≤ secret.length ∧
    ((score secret guess).1 = secret.length ↔ secret = guess) ∧
    score guess secret = score secret guess

/-- R223: the exact count is the number of positions that agree. R224: the approximate count is, summed over the colours, the smaller of the two numbers of unconsumed slots holding the
colour, the unconsumed positions being those where the sequences differ: the order in which duplicate pegs are consumed does not
change the result. -/
def Obligations.ScoreIsColourOverlap : Prop :=
  ∀ (secret guess : List Nat) (colors : Nat) (left : List (Nat × Nat)), secret.length = guess.length →
    (∀ v ∈ secret, v ≤ colors) → (∀ v ∈ guess, v ≤ colors) →
    left = (secret.zip guess).filter (fun ab => decide (ab.1 ≠ ab.2)) →
    (score secret guess).1 = (secret.zip guess).countP (fun ab => decide (ab.1 = ab.2)) ∧
    (score secret guess).2 =
      ((List.range (colors + 1)).map (fun v => min ((left.map Prod.fst).count v) ((left.map Prod.snd).count v))).sum

/-- R226: an integer with another number of decimal digits than `seqlen` is `MalformedSecretLength`; otherwise it is the sequence of
its digits, the least significant last, if each lies in `[1, colors]`, and `InvalidDigit` if one does not. That the integer 0 is
written with one digit, which decides the case `seqlen = 1`, `n = 0`, is the model's choice (log 13). -/
def Obligations.SecretDecoding : Prop :=
  ∀ (seqlen colors n : Nat), 1 ≤ seqlen →
    (10 ^ seqlen ≤ n → decodeSecret seqlen colors n = .malformedSecretLength) ∧
    (1 < seqlen → n < 10 ^ (seqlen - 1) → decodeSecret seqlen colors n = .malformedSecretLength) ∧
    (n < 10 ^ seqlen → (seqlen = 1 ∨ 10 ^ (seqlen - 1) ≤ n) → ∃ seq : List Nat,
      seq.length = seqlen ∧ (∀ d ∈ seq, d < 10) ∧ seq.foldl (fun a d => 10 * a + d) 0 = n ∧
      ((∀ d ∈ seq, 1 ≤ d ∧ d ≤ colors) → decodeSecret seqlen colors n = .ok seq) ∧
      (¬ (∀ d ∈ seq, 1 ≤ d ∧ d ≤ colors) → decodeSecret seqlen colors n = .invalidDigit))

/-- R233: the attempt is counted, the win test comes first, then the maximum. -/
def Obligations.RoundCompletion : Prop :=
  ∀ g : Session, g.phase = .roundComplete →
    (completeRound g).attempts = g.attempts + 1 ∧
    (g.result.1 = g.secret.length → (completeRound g).phase = .won) ∧
    (g.result.1 ≠ g.secret.length → g.maxAttempts ≤ g.attempts + 1 → (completeRound g).phase = .lost) ∧
    (g.result.1 ≠ g.secret.length → g.attempts + 1 < g.maxAttempts → (completeRound g).phase = .awaitingGuess)

/-! ### The register block as bytes, the launch premises, the boot sequence -/

/-- R64 with R65 and R67: byte `off` holds bits [7:0] of the word at `off`, little-endian, at the offsets of the configuration, and
that word is what an admitted read at its offset returns (after the gap in which the other agents may act). -/
def Obligations.StoredBytesAreLittleEndian : Prop :=
  ∀ s : State, s.cfg.Valid →
    (∀ (r : ReadReq) (j : Nat), j < 4 →
      storedByte s (readOffset s.cfg r + j) = some ((readValue s r).extractLsb' (8 * j) 8)) ∧
    (∀ (k : Fin 6) (j : Nat), j < 4 → storedByte s (s.cfg.fselOff[k] + j) = some (s.gpfsel[k].extractLsb' (8 * j) 8)) ∧
    (∀ r : ReadReq, s.acquired = true → ∃ t, memRead (readOffset s.cfg r) s = some (readValue (gap s) r, t)) ∧
    (∀ j : Nat, j < 4 → storedByte s (s.cfg.gpsetOff + j) = none ∧ storedByte s (s.cfg.gpclrOff + j) = none)

/-- R190, R194, R199: `TimeAdvances` and `TimerFair` and nothing else bring the end of a wait. For every unending sequence of moves
that meets both there is a number of them after which the wait has ended by those moves alone: whatever would come next is left
untouched, and neither a free move, nor the free number of polls, nor the expiry the model forces (log 3) takes part. -/
def Obligations.WaitEndsUnderFairness : Prop :=
  ∀ (s : State) (m : Nat → EnvMove), s.status = .running → s.timerArmed = false → s.acquired = true →
    TimeAdvances m → TimerFair m →
    ∃ (n : Nat) (t : State), t.timerExpired = true ∧ t.status = .running ∧ ∀ rest : List EnvMove,
      exec .waitInput { s with env := script m n ++ rest } = .next { t with env := rest }

/-- R285 with R7, R33, R46 and R236: along every run under a valid configuration that starts in a state meeting `Inv` and in which the
host is well behaved, every state meets `Inv` under that configuration, and the host's stream only grows. -/
def Obligations.RunsKeepInv : Prop :=
  ∀ (c : Cfg) (stream : Nat → List Word) (run : Nat → Block), c.Valid → Inv ((run 0).under c (stream 0)) →
    HostWellBehaved c stream run → ∀ n, Inv ((run n).under c (stream n)) ∧ stream 0 <+: stream n

/-- R287 with R229: from a clean reset with the device available the boot sequence completes, whatever known levels the host
writes in it, and leaves the block mapped, the button an input, the six LCD pins and the two LEDs outputs, and the display
configured with the cursor at (0, 0). -/
def Obligations.BootSequenceCompletes : Prop :=
  ∀ (s : State) (levels : List (Pin × Level)), CleanReset s → HwAvailable s → s.cfg.Valid →
    ∃ t, execAll (bootSequence s.cfg levels) s = .next t ∧ t.status = .running ∧ t.acquired = true ∧
      t.lcdMode = .configured ∧ t.ctl = 0b100 ∧ t.cx = 0 ∧ t.cy = 0 ∧ LcdPinsOutput t ∧
      field t t.cfg.pinLed1 = 0b001#3 ∧ field t t.cfg.pinLed2 = 0b001#3 ∧ field t t.cfg.pinButton = 0b000#3 ∧
      t.cp = 11 + levels.length

/-- R153, R288 with R25: with the six LCD pins in output mode the levels on the register-select line, the four data lines and the
strobe line are the latches, whatever the outside drives, so the bus trace of the latches, its pairs and its falling edges, is what
the display receives (log 12). -/
def Obligations.LcdLinesAreTheLatches : Prop :=
  ∀ s : State, LcdPinsOutput s →
    lcdLines s = linesOf s.cfg s.latch ∧ pinLevel s s.cfg.pinStrb = s.latch.getLsbD s.cfg.pinStrb.val

/-- R235: after a fatal error of its own the host still owes the block RELEASE; the block then ends well and the process ends with a
non-zero status (the code R241 reserves for the error), where without an error it is 0. A configured secret that does not decode
is such an error; a live digit out of range is none: the session is as it was and the wait is repeated. -/
def Obligations.HostErrors : Prop :=
  (∀ (s : State) (f : HostFatal), s.status = .running →
    ∃ t, execAll exitPath s = .next t ∧ EndedWell t ∧ exitStatus t = some 0 ∧ hostExitStatus none t = some 0 ∧
      ∃ c, hostExitStatus (some f) t = some c ∧ c ≠ 0) ∧
  (∀ seqlen colors n : Nat, (decodeSecret seqlen colors n).fatal = none ↔ ∃ seq, decodeSecret seqlen colors n = .ok seq) ∧
  (∀ (g : Session) (count : Nat), ¬ (1 ≤ count ∧ count ≤ g.colors) → takeDigit count g = g)
end

