-- ==== Sys2Proof/Laws/Decode.lean ====
section
/-! SUPPORT. The fields of a word built from an opcode and an operand, and decoding one opcode at a time. -/

namespace Sys2Proof

theorem wordOf_toNat {op x : Nat} (h : op < 256) (hx : x < 2 ^ 24) : (wordOf op x).toNat = op * 2 ^ 24 + x := by
  unfold wordOf
  rw [BitVec.toNat_ofNat]
  exact Nat.mod_eq_of_lt (by omega)

/-- The opcode field of a word is the opcode it was built from (R91). -/
theorem bitField_wordOf_opcode {op x : Nat} (h : op < 256) (hx : x < 2 ^ 24) : bitField (wordOf op x) 24 8 = op := by
  unfold bitField
  rw [wordOf_toNat h hx]
  omega

/-- A field below the opcode is that field of the operand (R91, R99). -/
theorem bitField_wordOf_operand {op x lo width : Nat} (h : op < 256) (hx : x < 2 ^ 24) (hw : lo + width ≤ 24) :
    bitField (wordOf op x) lo width = x / 2 ^ lo % 2 ^ width := by
  unfold bitField
  rw [wordOf_toNat h hx]
  have e : op * 2 ^ 24 = 2 ^ lo * (2 ^ width * (op * 2 ^ (24 - lo - width))) := by
    have : (2 : Nat) ^ 24 = 2 ^ lo * (2 ^ width * 2 ^ (24 - lo - width)) := by
      rw [← pow_add, ← pow_add]; congr 1; omega
    rw [this]; ring
  rw [e, Nat.mul_add_div (by positivity), Nat.mul_add_mod]

/-- Decoding reads the opcode field and no other before it selects the row (R101). -/
theorem checked_wordOf {op x used : Nat} (i : Instr) (h : op < 256) (hx : x < 2 ^ 24) (hu : used ≤ 24)
    (hz : x < 2 ^ used) : checked (wordOf op x) op used i = .command i := by
  unfold checked
  rw [bitField_wordOf_operand h hx (by omega), Nat.div_eq_of_lt hz]
  simp

/-- A word whose check passes is a command. -/
theorem checked_command {w : Word} {op used : Nat} {i j : Instr} (h : checked w op used i = .command j) :
    bitField w used (24 - used) = 0 ∧ j = i := by
  unfold checked at h
  split at h
  · exact ⟨‹_›, by simpa using h.symm⟩
  · simp at h

/-- A word is its opcode and its operand bits. -/
theorem wordOf_fields (w : Word) : wordOf (bitField w 24 8) (bitField w 0 24) = w := by
  apply BitVec.eq_of_toNat_eq
  have h := w.isLt
  rw [wordOf_toNat (by unfold bitField; omega) (by unfold bitField; omega)]
  unfold bitField
  omega

end Sys2Proof
end

