-- ==== Sys2Proof/Laws/HostSide.lean ====
section
/-! SUPPORT. The session's invariant and what keeps it (R221, R226 to R233); what one command of the host and one attempt at a
digit do (R230, R236). -/

namespace Sys2Proof.Laws

open Sys2Proof Sys2Proof.Machine

/-! ### Sequences and secrets -/

theorem isSequence_iff (c : Cfg) (l : List Nat) :
    isSequence c l = true ↔ l.length = c.seqlen ∧ ∀ v ∈ l, 1 ≤ v ∧ v ≤ c.colors := by
  simp [isSequence]

/-- A session exists exactly for a secret that is a sequence of the deployment (R221). -/
theorem newSession_isSome (c : Cfg) (l : List Nat) : (newSession c l).isSome = isSequence c l := by
  unfold newSession
  split <;> simp_all

theorem decimalDigits_length (k n : Nat) : (decimalDigits k n).length = k := by
  induction k generalizing n with
  | zero => rfl
  | succ k ih => simp [decimalDigits, ih]

/-- What intake accepts is a sequence of the deployment (R221, R226). -/
theorem configuredSecret_ok {c : Cfg} {n : Nat} {l : List Nat} (h : configuredSecret c n = .ok l) :
    isSequence c l = true := by
  unfold configuredSecret decodeSecret at h
  split at h
  · split at h
    · cases h
      simp_all [isSequence, decimalDigits_length]
    · cases h
  · cases h

/-- A configured secret has a session exactly if reading it gives no fatal error (R226, R227, R235). -/
theorem configuredSession_isSome (c : Cfg) (n : Nat) :
    (configuredSession c n).isSome = (configuredSecret c n).fatal.isNone := by
  unfold configuredSession
  split
  · rw [newSession_isSome, configuredSecret_ok ‹_›, ‹configuredSecret c n = _›]; rfl
  · simp [*, SecretResult.fatal]
  · simp [*, SecretResult.fatal]

/-! ### The session's invariant -/

/-- The secret is a sequence of the deployment; the guess has colours of it, fewer than `seqlen` while digits are awaited and
`seqlen` from scoring on (R221, R227, R228). -/
structure SessionInv (c : Cfg) (g : Session) : Prop where
  secret : isSequence c g.secret = true
  seqlen : g.seqlen = c.seqlen
  colors : g.colors = c.colors
  maxAttempts : g.maxAttempts = c.maxAttempts
  digits : ∀ v ∈ g.guess, 1 ≤ v ∧ v ≤ c.colors
  awaiting : g.phase = .awaitingGuess → g.guess.length < c.seqlen
  full : g.phase ≠ .awaitingGuess → g.guess.length = c.seqlen

theorem newSession_inv {c : Cfg} {l : List Nat} {g : Session} (hn : 1 ≤ c.seqlen) (h : newSession c l = some g) :
    SessionInv c g := by
  unfold newSession at h
  split at h
  · cases h
    exact ⟨‹_›, rfl, rfl, rfl, by simp, fun _ => hn, by simp⟩
  · cases h

theorem takeDigit_inv {c : Cfg} {g : Session} (n : Nat) (h : SessionInv c g) : SessionInv c (takeDigit n g) := by
  unfold takeDigit
  split
  · rename_i hd
    have hl := h.awaiting hd.1
    have hs := h.seqlen
    have hc := h.colors
    refine ⟨h.secret, hs, hc, h.maxAttempts, ?_, ?_, ?_⟩
    · intro v hv
      rcases List.mem_append.mp hv with hv | hv
      · exact h.digits v hv
      · obtain rfl : v = n := by simpa using hv
        exact ⟨hd.2.1, by omega⟩
    · dsimp only
      split
      · simp
      · simp; omega
    · dsimp only
      split
      · simp; omega
      · simp
  · exact h

theorem scoreRound_inv {c : Cfg} {g : Session} (h : SessionInv c g) : SessionInv c (scoreRound g) := by
  unfold scoreRound
  split
  · rename_i hp
    exact ⟨h.secret, h.seqlen, h.colors, h.maxAttempts, h.digits, by simp, fun _ => h.full (by simp [hp])⟩
  · exact h

theorem completeRound_inv {c : Cfg} {g : Session} (hn : 1 ≤ c.seqlen) (h : SessionInv c g) :
    SessionInv c (completeRound g) := by
  unfold completeRound
  split
  · rename_i hp
    have hf := h.full (by simp [hp])
    refine ⟨h.secret, h.seqlen, h.colors, h.maxAttempts, ?_, ?_, ?_⟩
    · intro v hv
      dsimp only at hv
      split at hv
      · exact h.digits v hv
      · cases hv
    · by_cases hw : g.result.1 = g.secret.length <;> by_cases hm : g.maxAttempts ≤ g.attempts + 1 <;> simp [hw, hm]
      omega
    · by_cases hw : g.result.1 = g.secret.length <;> by_cases hm : g.maxAttempts ≤ g.attempts + 1 <;> simp [hw, hm, hf]
  · exact h

/-- Immutable: the secret is the one of the session's start after every action of the host (R221). -/
@[simp] theorem takeDigit_secret (n : Nat) (g : Session) : (takeDigit n g).secret = g.secret := by
  unfold takeDigit; split <;> rfl

@[simp] theorem scoreRound_secret (g : Session) : (scoreRound g).secret = g.secret := by
  unfold scoreRound; split <;> rfl

@[simp] theorem completeRound_secret (g : Session) : (completeRound g).secret = g.secret := by
  unfold completeRound; split <;> rfl

/-! ### Commands of the host -/

theorem andThen_next {α β : Type} {o : Host.Outcome α Fault Refusal} {f : α → Host.Outcome β Fault Refusal} {b : β}
    (h : andThen o f = .next b) : ∃ a, o = .next a ∧ f a = .next b := by
  cases o with
  | next a => exact ⟨a, rfl, h⟩
  | fault r => cases h
  | refused r => cases h

/-- A ready host's command is the one the block performs next (R33, R101, R236). -/
theorem issue_exec {i : Instr} {s : State} (hr : HostReady s) (hs : s.status = .running)
    (hd : decode (encode i) = .command i) : issue i s = exec i (handOn i s) := by
  have hf : fetch (handOn i s) = .word (encode i) := by
    unfold HostReady at hr
    simp [fetch, handOn, hs, hr]
  simp [issue, step, hf, hd]

theorem issue_waitInput {s : State} (hr : HostReady s) (hs : s.status = .running) :
    issue .waitInput s = exec .waitInput (handOn .waitInput s) :=
  issue_exec hr hs (by decide)

/-! ### Attempts at a digit -/

/-- What an attempt does (R230): one WAIT_INPUT; after a fault nothing more, else the feedback, and the count in `resp` taken. -/
theorem attempt_next {f : Feedback} {p q : Play} (h : attempt f p = .next q) :
    ∃ t, issue .waitInput p.block = .next t ∧
      ((t.status = .faulted ∧ q = ⟨t, p.session⟩) ∨
        (t.status ≠ .faulted ∧ q.session = takeDigit t.resp.toNat p.session ∧
          issueAll (f.digit t.resp.toNat) t = .next q.block)) := by
  obtain ⟨t, ht, h⟩ := andThen_next h
  refine ⟨t, ht, ?_⟩
  split at h
  · exact .inl ⟨‹_›, by cases h; rfl⟩
  · obtain ⟨u, hu, h⟩ := andThen_next h
    cases h
    exact .inr ⟨‹_›, rfl, hu⟩

theorem attempt_inv {c : Cfg} {f : Feedback} {p q : Play} (h : attempt f p = .next q) (hi : SessionInv c p.session) :
    SessionInv c q.session := by
  obtain ⟨t, -, ⟨-, rfl⟩ | ⟨-, e, -⟩⟩ := attempt_next h
  · exact hi
  · rw [e]; exact takeDigit_inv _ hi

/-- Every digit of a guess is a count that an attempt accepted, however many attempts it takes (R221, R230). -/
theorem awaitGuess_inv {c : Cfg} {f : Feedback} {n : Nat} {p q : Play} (h : awaitGuess f n p = .next q)
    (hi : SessionInv c p.session) : SessionInv c q.session := by
  induction n generalizing p with
  | zero => cases h; exact hi
  | succ n ih =>
    unfold awaitGuess at h
    split at h
    · obtain ⟨r, hr, h⟩ := andThen_next h
      exact ih h (attempt_inv hr hi)
    · cases h; exact hi

/-- After a refused count the guess and the phase are as before, and the next attempt is another WAIT_INPUT (R230). -/
theorem awaitGuess_refused {f : Feedback} {n : Nat} {p : Play} {t u : State} (ha : p.session.phase = .awaitingGuess)
    (hs : p.block.status = .running) (hw : issue .waitInput p.block = .next t) (ht : t.status ≠ .faulted)
    (hu : issueAll (f.digit t.resp.toNat) t = .next u) (hc : ¬ (1 ≤ t.resp.toNat ∧ t.resp.toNat ≤ p.session.colors)) :
    awaitGuess f (n + 1) p = awaitGuess f n ⟨u, p.session⟩ := by
  have e : takeDigit t.resp.toNat p.session = p.session := by unfold takeDigit; rw [if_neg (by tauto)]
  rw [awaitGuess, if_pos ⟨ha, hs⟩]
  simp [attempt, andThen, hw, ht, hu, e]

/-- A round keeps the session's invariant: its guess is full when it is scored and fresh when the next one begins (R221). -/
theorem playRound_inv {c : Cfg} {f : Feedback} {n : Nat} {p q : Play} (hn : 1 ≤ c.seqlen) (h : playRound f n p = .next q)
    (hi : SessionInv c p.session) : SessionInv c q.session := by
  obtain ⟨a, ha, h⟩ := andThen_next h
  obtain ⟨b, hb, h⟩ := andThen_next h
  have hia := awaitGuess_inv ha hi
  have hib : SessionInv c b.session := by
    unfold scoreAndShow at hb
    split at hb
    · obtain ⟨t, -, hb⟩ := andThen_next hb
      cases hb
      exact scoreRound_inv hia
    · cases hb; exact hia
  have hic := completeRound_inv hn hib
  unfold finish at h
  split at h
  · obtain ⟨t, -, h⟩ := andThen_next h
    cases h; exact hic
  · obtain ⟨t, -, h⟩ := andThen_next h
    cases h; exact hic
  all_goals cases h; exact hic

end Sys2Proof.Laws
end

