-- ==== Sys2Proof/Laws/State.lean ====
section
/-! SUPPORT. One lemma per field per operation: what each operation of the machine leaves as it was. Proofs cite these and never
unfold a record update. -/

namespace Sys2Proof.Machine

variable (s : State)

/-! ### `emit` changes the trace only -/

@[simp] theorem emit_gpfsel (e : Event) : (emit e s).gpfsel = s.gpfsel := rfl
@[simp] theorem emit_latch (e : Event) : (emit e s).latch = s.latch := rfl
@[simp] theorem emit_cx (e : Event) : (emit e s).cx = s.cx := rfl
@[simp] theorem emit_cy (e : Event) : (emit e s).cy = s.cy := rfl
@[simp] theorem emit_ctl (e : Event) : (emit e s).ctl = s.ctl := rfl
@[simp] theorem emit_prev (e : Event) : (emit e s).prev = s.prev := rfl
@[simp] theorem emit_count (e : Event) : (emit e s).count = s.count := rfl
@[simp] theorem emit_cp (e : Event) : (emit e s).cp = s.cp := rfl
@[simp] theorem emit_acquired (e : Event) : (emit e s).acquired = s.acquired := rfl
@[simp] theorem emit_lcdMode (e : Event) : (emit e s).lcdMode = s.lcdMode := rfl
@[simp] theorem emit_resp (e : Event) : (emit e s).resp = s.resp := rfl
@[simp] theorem emit_status (e : Event) : (emit e s).status = s.status := rfl
@[simp] theorem emit_faultCause (e : Event) : (emit e s).faultCause = s.faultCause := rfl
@[simp] theorem emit_timerArmed (e : Event) : (emit e s).timerArmed = s.timerArmed := rfl
@[simp] theorem emit_timerExpired (e : Event) : (emit e s).timerExpired = s.timerExpired := rfl
@[simp] theorem emit_timerFireAt (e : Event) : (emit e s).timerFireAt = s.timerFireAt := rfl
@[simp] theorem emit_extIn (e : Event) : (emit e s).extIn = s.extIn := rfl
@[simp] theorem emit_now (e : Event) : (emit e s).now = s.now := rfl
@[simp] theorem emit_hwAvailable (e : Event) : (emit e s).hwAvailable = s.hwAvailable := rfl
@[simp] theorem emit_cfg (e : Event) : (emit e s).cfg = s.cfg := rfl
@[simp] theorem emit_stream (e : Event) : (emit e s).stream = s.stream := rfl
@[simp] theorem emit_env (e : Event) : (emit e s).env = s.env := rfl
@[simp] theorem emit_draws (e : Event) : (emit e s).draws = s.draws := rfl

@[simp] theorem emit_trace (e : Event) : (emit e s).trace = s.trace ++ [e] := rfl

/-! ### `tick` changes `now` only -/

@[simp] theorem tick_gpfsel (n : Nat) : (tick n s).gpfsel = s.gpfsel := rfl
@[simp] theorem tick_latch (n : Nat) : (tick n s).latch = s.latch := rfl
@[simp] theorem tick_cx (n : Nat) : (tick n s).cx = s.cx := rfl
@[simp] theorem tick_cy (n : Nat) : (tick n s).cy = s.cy := rfl
@[simp] theorem tick_ctl (n : Nat) : (tick n s).ctl = s.ctl := rfl
@[simp] theorem tick_prev (n : Nat) : (tick n s).prev = s.prev := rfl
@[simp] theorem tick_count (n : Nat) : (tick n s).count = s.count := rfl
@[simp] theorem tick_cp (n : Nat) : (tick n s).cp = s.cp := rfl
@[simp] theorem tick_acquired (n : Nat) : (tick n s).acquired = s.acquired := rfl
@[simp] theorem tick_lcdMode (n : Nat) : (tick n s).lcdMode = s.lcdMode := rfl
@[simp] theorem tick_resp (n : Nat) : (tick n s).resp = s.resp := rfl
@[simp] theorem tick_status (n : Nat) : (tick n s).status = s.status := rfl
@[simp] theorem tick_faultCause (n : Nat) : (tick n s).faultCause = s.faultCause := rfl
@[simp] theorem tick_timerArmed (n : Nat) : (tick n s).timerArmed = s.timerArmed := rfl
@[simp] theorem tick_timerExpired (n : Nat) : (tick n s).timerExpired = s.timerExpired := rfl
@[simp] theorem tick_timerFireAt (n : Nat) : (tick n s).timerFireAt = s.timerFireAt := rfl
@[simp] theorem tick_extIn (n : Nat) : (tick n s).extIn = s.extIn := rfl
@[simp] theorem tick_hwAvailable (n : Nat) : (tick n s).hwAvailable = s.hwAvailable := rfl
@[simp] theorem tick_cfg (n : Nat) : (tick n s).cfg = s.cfg := rfl
@[simp] theorem tick_stream (n : Nat) : (tick n s).stream = s.stream := rfl
@[simp] theorem tick_env (n : Nat) : (tick n s).env = s.env := rfl
@[simp] theorem tick_draws (n : Nat) : (tick n s).draws = s.draws := rfl
@[simp] theorem tick_trace (n : Nat) : (tick n s).trace = s.trace := rfl

@[simp] theorem tick_now (n : Nat) : (tick n s).now = s.now + n := rfl

/-! ### `pinChange` changes `extIn` only -/

@[simp] theorem pinChange_gpfsel (w : Word) : (pinChange w s).gpfsel = s.gpfsel := rfl
@[simp] theorem pinChange_latch (w : Word) : (pinChange w s).latch = s.latch := rfl
@[simp] theorem pinChange_cx (w : Word) : (pinChange w s).cx = s.cx := rfl
@[simp] theorem pinChange_cy (w : Word) : (pinChange w s).cy = s.cy := rfl
@[simp] theorem pinChange_ctl (w : Word) : (pinChange w s).ctl = s.ctl := rfl
@[simp] theorem pinChange_prev (w : Word) : (pinChange w s).prev = s.prev := rfl
@[simp] theorem pinChange_count (w : Word) : (pinChange w s).count = s.count := rfl
@[simp] theorem pinChange_cp (w : Word) : (pinChange w s).cp = s.cp := rfl
@[simp] theorem pinChange_acquired (w : Word) : (pinChange w s).acquired = s.acquired := rfl
@[simp] theorem pinChange_lcdMode (w : Word) : (pinChange w s).lcdMode = s.lcdMode := rfl
@[simp] theorem pinChange_resp (w : Word) : (pinChange w s).resp = s.resp := rfl
@[simp] theorem pinChange_status (w : Word) : (pinChange w s).status = s.status := rfl
@[simp] theorem pinChange_faultCause (w : Word) : (pinChange w s).faultCause = s.faultCause := rfl
@[simp] theorem pinChange_timerArmed (w : Word) : (pinChange w s).timerArmed = s.timerArmed := rfl
@[simp] theorem pinChange_timerExpired (w : Word) : (pinChange w s).timerExpired = s.timerExpired := rfl
@[simp] theorem pinChange_timerFireAt (w : Word) : (pinChange w s).timerFireAt = s.timerFireAt := rfl
@[simp] theorem pinChange_now (w : Word) : (pinChange w s).now = s.now := rfl
@[simp] theorem pinChange_hwAvailable (w : Word) : (pinChange w s).hwAvailable = s.hwAvailable := rfl
@[simp] theorem pinChange_cfg (w : Word) : (pinChange w s).cfg = s.cfg := rfl
@[simp] theorem pinChange_stream (w : Word) : (pinChange w s).stream = s.stream := rfl
@[simp] theorem pinChange_env (w : Word) : (pinChange w s).env = s.env := rfl
@[simp] theorem pinChange_draws (w : Word) : (pinChange w s).draws = s.draws := rfl
@[simp] theorem pinChange_trace (w : Word) : (pinChange w s).trace = s.trace := rfl

@[simp] theorem pinChange_extIn (w : Word) : (pinChange w s).extIn = w := rfl

/-! ### `dropMove` changes the script and the counter of free values only -/

@[simp] theorem dropMove_gpfsel  : (dropMove s).gpfsel = s.gpfsel := by
  unfold dropMove; split <;> rfl
@[simp] theorem dropMove_latch  : (dropMove s).latch = s.latch := by
  unfold dropMove; split <;> rfl
@[simp] theorem dropMove_cx  : (dropMove s).cx = s.cx := by
  unfold dropMove; split <;> rfl
@[simp] theorem dropMove_cy  : (dropMove s).cy = s.cy := by
  unfold dropMove; split <;> rfl
@[simp] theorem dropMove_ctl  : (dropMove s).ctl = s.ctl := by
  unfold dropMove; split <;> rfl
@[simp] theorem dropMove_prev  : (dropMove s).prev = s.prev := by
  unfold dropMove; split <;> rfl
@[simp] theorem dropMove_count  : (dropMove s).count = s.count := by
  unfold dropMove; split <;> rfl
@[simp] theorem dropMove_cp  : (dropMove s).cp = s.cp := by
  unfold dropMove; split <;> rfl
@[simp] theorem dropMove_acquired  : (dropMove s).acquired = s.acquired := by
  unfold dropMove; split <;> rfl
@[simp] theorem dropMove_lcdMode  : (dropMove s).lcdMode = s.lcdMode := by
  unfold dropMove; split <;> rfl
@[simp] theorem dropMove_resp  : (dropMove s).resp = s.resp := by
  unfold dropMove; split <;> rfl
@[simp] theorem dropMove_status  : (dropMove s).status = s.status := by
  unfold dropMove; split <;> rfl
@[simp] theorem dropMove_faultCause  : (dropMove s).faultCause = s.faultCause := by
  unfold dropMove; split <;> rfl
@[simp] theorem dropMove_timerArmed  : (dropMove s).timerArmed = s.timerArmed := by
  unfold dropMove; split <;> rfl
@[simp] theorem dropMove_timerExpired  : (dropMove s).timerExpired = s.timerExpired := by
  unfold dropMove; split <;> rfl
@[simp] theorem dropMove_timerFireAt  : (dropMove s).timerFireAt = s.timerFireAt := by
  unfold dropMove; split <;> rfl
@[simp] theorem dropMove_extIn  : (dropMove s).extIn = s.extIn := by
  unfold dropMove; split <;> rfl
@[simp] theorem dropMove_now  : (dropMove s).now = s.now := by
  unfold dropMove; split <;> rfl
@[simp] theorem dropMove_hwAvailable  : (dropMove s).hwAvailable = s.hwAvailable := by
  unfold dropMove; split <;> rfl
@[simp] theorem dropMove_cfg  : (dropMove s).cfg = s.cfg := by
  unfold dropMove; split <;> rfl
@[simp] theorem dropMove_stream  : (dropMove s).stream = s.stream := by
  unfold dropMove; split <;> rfl
@[simp] theorem dropMove_trace  : (dropMove s).trace = s.trace := by
  unfold dropMove; split <;> rfl

/-! ### `timerArm` changes the timer only -/

@[simp] theorem timerArm_gpfsel  : (timerArm s).gpfsel = s.gpfsel := rfl
@[simp] theorem timerArm_latch  : (timerArm s).latch = s.latch := rfl
@[simp] theorem timerArm_cx  : (timerArm s).cx = s.cx := rfl
@[simp] theorem timerArm_cy  : (timerArm s).cy = s.cy := rfl
@[simp] theorem timerArm_ctl  : (timerArm s).ctl = s.ctl := rfl
@[simp] theorem timerArm_prev  : (timerArm s).prev = s.prev := rfl
@[simp] theorem timerArm_count  : (timerArm s).count = s.count := rfl
@[simp] theorem timerArm_cp  : (timerArm s).cp = s.cp := rfl
@[simp] theorem timerArm_acquired  : (timerArm s).acquired = s.acquired := rfl
@[simp] theorem timerArm_lcdMode  : (timerArm s).lcdMode = s.lcdMode := rfl
@[simp] theorem timerArm_resp  : (timerArm s).resp = s.resp := rfl
@[simp] theorem timerArm_status  : (timerArm s).status = s.status := rfl
@[simp] theorem timerArm_faultCause  : (timerArm s).faultCause = s.faultCause := rfl
@[simp] theorem timerArm_extIn  : (timerArm s).extIn = s.extIn := rfl
@[simp] theorem timerArm_now  : (timerArm s).now = s.now := rfl
@[simp] theorem timerArm_hwAvailable  : (timerArm s).hwAvailable = s.hwAvailable := rfl
@[simp] theorem timerArm_cfg  : (timerArm s).cfg = s.cfg := rfl
@[simp] theorem timerArm_stream  : (timerArm s).stream = s.stream := rfl
@[simp] theorem timerArm_env  : (timerArm s).env = s.env := rfl
@[simp] theorem timerArm_draws  : (timerArm s).draws = s.draws := rfl
@[simp] theorem timerArm_trace  : (timerArm s).trace = s.trace := rfl

@[simp] theorem timerArm_timerArmed : (timerArm s).timerArmed = true := rfl
@[simp] theorem timerArm_timerExpired : (timerArm s).timerExpired = false := rfl
@[simp] theorem timerArm_timerFireAt : (timerArm s).timerFireAt = s.now + s.cfg.tDeadline * s.cfg.uDeadline := rfl

/-! ### `expiryStep` sets the flag, disarms and leaves an `X` -/

@[simp] theorem expiryStep_gpfsel  : (expiryStep s).gpfsel = s.gpfsel := rfl
@[simp] theorem expiryStep_latch  : (expiryStep s).latch = s.latch := rfl
@[simp] theorem expiryStep_cx  : (expiryStep s).cx = s.cx := rfl
@[simp] theorem expiryStep_cy  : (expiryStep s).cy = s.cy := rfl
@[simp] theorem expiryStep_ctl  : (expiryStep s).ctl = s.ctl := rfl
@[simp] theorem expiryStep_prev  : (expiryStep s).prev = s.prev := rfl
@[simp] theorem expiryStep_count  : (expiryStep s).count = s.count := rfl
@[simp] theorem expiryStep_cp  : (expiryStep s).cp = s.cp := rfl
@[simp] theorem expiryStep_acquired  : (expiryStep s).acquired = s.acquired := rfl
@[simp] theorem expiryStep_lcdMode  : (expiryStep s).lcdMode = s.lcdMode := rfl
@[simp] theorem expiryStep_resp  : (expiryStep s).resp = s.resp := rfl
@[simp] theorem expiryStep_status  : (expiryStep s).status = s.status := rfl
@[simp] theorem expiryStep_faultCause  : (expiryStep s).faultCause = s.faultCause := rfl
@[simp] theorem expiryStep_timerFireAt  : (expiryStep s).timerFireAt = s.timerFireAt := rfl
@[simp] theorem expiryStep_extIn  : (expiryStep s).extIn = s.extIn := rfl
@[simp] theorem expiryStep_now  : (expiryStep s).now = s.now := rfl
@[simp] theorem expiryStep_hwAvailable  : (expiryStep s).hwAvailable = s.hwAvailable := rfl
@[simp] theorem expiryStep_cfg  : (expiryStep s).cfg = s.cfg := rfl
@[simp] theorem expiryStep_stream  : (expiryStep s).stream = s.stream := rfl
@[simp] theorem expiryStep_env  : (expiryStep s).env = s.env := rfl
@[simp] theorem expiryStep_draws  : (expiryStep s).draws = s.draws := rfl

@[simp] theorem expiryStep_timerArmed : (expiryStep s).timerArmed = false := rfl
@[simp] theorem expiryStep_timerExpired : (expiryStep s).timerExpired = true := rfl
@[simp] theorem expiryStep_trace : (expiryStep s).trace = s.trace ++ [.expiry] := rfl

/-! ### `timerAgent` changes what the expiry step changes -/

@[simp] theorem timerAgent_gpfsel (b : Bool) : (timerAgent b s).gpfsel = s.gpfsel := by
  unfold timerAgent; split <;> rfl
@[simp] theorem timerAgent_latch (b : Bool) : (timerAgent b s).latch = s.latch := by
  unfold timerAgent; split <;> rfl
@[simp] theorem timerAgent_cx (b : Bool) : (timerAgent b s).cx = s.cx := by
  unfold timerAgent; split <;> rfl
@[simp] theorem timerAgent_cy (b : Bool) : (timerAgent b s).cy = s.cy := by
  unfold timerAgent; split <;> rfl
@[simp] theorem timerAgent_ctl (b : Bool) : (timerAgent b s).ctl = s.ctl := by
  unfold timerAgent; split <;> rfl
@[simp] theorem timerAgent_prev (b : Bool) : (timerAgent b s).prev = s.prev := by
  unfold timerAgent; split <;> rfl
@[simp] theorem timerAgent_count (b : Bool) : (timerAgent b s).count = s.count := by
  unfold timerAgent; split <;> rfl
@[simp] theorem timerAgent_cp (b : Bool) : (timerAgent b s).cp = s.cp := by
  unfold timerAgent; split <;> rfl
@[simp] theorem timerAgent_acquired (b : Bool) : (timerAgent b s).acquired = s.acquired := by
  unfold timerAgent; split <;> rfl
@[simp] theorem timerAgent_lcdMode (b : Bool) : (timerAgent b s).lcdMode = s.lcdMode := by
  unfold timerAgent; split <;> rfl
@[simp] theorem timerAgent_resp (b : Bool) : (timerAgent b s).resp = s.resp := by
  unfold timerAgent; split <;> rfl
@[simp] theorem timerAgent_status (b : Bool) : (timerAgent b s).status = s.status := by
  unfold timerAgent; split <;> rfl
@[simp] theorem timerAgent_faultCause (b : Bool) : (timerAgent b s).faultCause = s.faultCause := by
  unfold timerAgent; split <;> rfl
@[simp] theorem timerAgent_timerFireAt (b : Bool) : (timerAgent b s).timerFireAt = s.timerFireAt := by
  unfold timerAgent; split <;> rfl
@[simp] theorem timerAgent_extIn (b : Bool) : (timerAgent b s).extIn = s.extIn := by
  unfold timerAgent; split <;> rfl
@[simp] theorem timerAgent_now (b : Bool) : (timerAgent b s).now = s.now := by
  unfold timerAgent; split <;> rfl
@[simp] theorem timerAgent_hwAvailable (b : Bool) : (timerAgent b s).hwAvailable = s.hwAvailable := by
  unfold timerAgent; split <;> rfl
@[simp] theorem timerAgent_cfg (b : Bool) : (timerAgent b s).cfg = s.cfg := by
  unfold timerAgent; split <;> rfl
@[simp] theorem timerAgent_stream (b : Bool) : (timerAgent b s).stream = s.stream := by
  unfold timerAgent; split <;> rfl
@[simp] theorem timerAgent_env (b : Bool) : (timerAgent b s).env = s.env := by
  unfold timerAgent; split <;> rfl
@[simp] theorem timerAgent_draws (b : Bool) : (timerAgent b s).draws = s.draws := by
  unfold timerAgent; split <;> rfl

/-! ### a gap changes the environment, the clock, the script, and the timer's two bits and the trace by an expiry -/

@[simp] theorem gapWith_gpfsel (a : Nat) (m : Bool) : (gapWith a m s).gpfsel = s.gpfsel := by
  simp [gapWith]
@[simp] theorem gapWith_latch (a : Nat) (m : Bool) : (gapWith a m s).latch = s.latch := by
  simp [gapWith]
@[simp] theorem gapWith_cx (a : Nat) (m : Bool) : (gapWith a m s).cx = s.cx := by
  simp [gapWith]
@[simp] theorem gapWith_cy (a : Nat) (m : Bool) : (gapWith a m s).cy = s.cy := by
  simp [gapWith]
@[simp] theorem gapWith_ctl (a : Nat) (m : Bool) : (gapWith a m s).ctl = s.ctl := by
  simp [gapWith]
@[simp] theorem gapWith_prev (a : Nat) (m : Bool) : (gapWith a m s).prev = s.prev := by
  simp [gapWith]
@[simp] theorem gapWith_count (a : Nat) (m : Bool) : (gapWith a m s).count = s.count := by
  simp [gapWith]
@[simp] theorem gapWith_cp (a : Nat) (m : Bool) : (gapWith a m s).cp = s.cp := by
  simp [gapWith]
@[simp] theorem gapWith_acquired (a : Nat) (m : Bool) : (gapWith a m s).acquired = s.acquired := by
  simp [gapWith]
@[simp] theorem gapWith_lcdMode (a : Nat) (m : Bool) : (gapWith a m s).lcdMode = s.lcdMode := by
  simp [gapWith]
@[simp] theorem gapWith_resp (a : Nat) (m : Bool) : (gapWith a m s).resp = s.resp := by
  simp [gapWith]
@[simp] theorem gapWith_status (a : Nat) (m : Bool) : (gapWith a m s).status = s.status := by
  simp [gapWith]
@[simp] theorem gapWith_faultCause (a : Nat) (m : Bool) : (gapWith a m s).faultCause = s.faultCause := by
  simp [gapWith]
@[simp] theorem gapWith_timerFireAt (a : Nat) (m : Bool) : (gapWith a m s).timerFireAt = s.timerFireAt := by
  simp [gapWith]
@[simp] theorem gapWith_hwAvailable (a : Nat) (m : Bool) : (gapWith a m s).hwAvailable = s.hwAvailable := by
  simp [gapWith]
@[simp] theorem gapWith_cfg (a : Nat) (m : Bool) : (gapWith a m s).cfg = s.cfg := by
  simp [gapWith]
@[simp] theorem gapWith_stream (a : Nat) (m : Bool) : (gapWith a m s).stream = s.stream := by
  simp [gapWith]

/-! ### `gap` -/

@[simp] theorem gap_gpfsel  : (gap s).gpfsel = s.gpfsel := by
  simp [gap]
@[simp] theorem gap_latch  : (gap s).latch = s.latch := by
  simp [gap]
@[simp] theorem gap_cx  : (gap s).cx = s.cx := by
  simp [gap]
@[simp] theorem gap_cy  : (gap s).cy = s.cy := by
  simp [gap]
@[simp] theorem gap_ctl  : (gap s).ctl = s.ctl := by
  simp [gap]
@[simp] theorem gap_prev  : (gap s).prev = s.prev := by
  simp [gap]
@[simp] theorem gap_count  : (gap s).count = s.count := by
  simp [gap]
@[simp] theorem gap_cp  : (gap s).cp = s.cp := by
  simp [gap]
@[simp] theorem gap_acquired  : (gap s).acquired = s.acquired := by
  simp [gap]
@[simp] theorem gap_lcdMode  : (gap s).lcdMode = s.lcdMode := by
  simp [gap]
@[simp] theorem gap_resp  : (gap s).resp = s.resp := by
  simp [gap]
@[simp] theorem gap_status  : (gap s).status = s.status := by
  simp [gap]
@[simp] theorem gap_faultCause  : (gap s).faultCause = s.faultCause := by
  simp [gap]
@[simp] theorem gap_timerFireAt  : (gap s).timerFireAt = s.timerFireAt := by
  simp [gap]
@[simp] theorem gap_hwAvailable  : (gap s).hwAvailable = s.hwAvailable := by
  simp [gap]
@[simp] theorem gap_cfg  : (gap s).cfg = s.cfg := by
  simp [gap]
@[simp] theorem gap_stream  : (gap s).stream = s.stream := by
  simp [gap]

/-! ### `delay`: a gap and its `D` -/

@[simp] theorem delay_gpfsel (t : Nat) : (delay t s).gpfsel = s.gpfsel := by
  simp [delay]
@[simp] theorem delay_latch (t : Nat) : (delay t s).latch = s.latch := by
  simp [delay]
@[simp] theorem delay_cx (t : Nat) : (delay t s).cx = s.cx := by
  simp [delay]
@[simp] theorem delay_cy (t : Nat) : (delay t s).cy = s.cy := by
  simp [delay]
@[simp] theorem delay_ctl (t : Nat) : (delay t s).ctl = s.ctl := by
  simp [delay]
@[simp] theorem delay_prev (t : Nat) : (delay t s).prev = s.prev := by
  simp [delay]
@[simp] theorem delay_count (t : Nat) : (delay t s).count = s.count := by
  simp [delay]
@[simp] theorem delay_cp (t : Nat) : (delay t s).cp = s.cp := by
  simp [delay]
@[simp] theorem delay_acquired (t : Nat) : (delay t s).acquired = s.acquired := by
  simp [delay]
@[simp] theorem delay_lcdMode (t : Nat) : (delay t s).lcdMode = s.lcdMode := by
  simp [delay]
@[simp] theorem delay_resp (t : Nat) : (delay t s).resp = s.resp := by
  simp [delay]
@[simp] theorem delay_status (t : Nat) : (delay t s).status = s.status := by
  simp [delay]
@[simp] theorem delay_faultCause (t : Nat) : (delay t s).faultCause = s.faultCause := by
  simp [delay]
@[simp] theorem delay_timerFireAt (t : Nat) : (delay t s).timerFireAt = s.timerFireAt := by
  simp [delay]
@[simp] theorem delay_hwAvailable (t : Nat) : (delay t s).hwAvailable = s.hwAvailable := by
  simp [delay]
@[simp] theorem delay_cfg (t : Nat) : (delay t s).cfg = s.cfg := by
  simp [delay]
@[simp] theorem delay_stream (t : Nat) : (delay t s).stream = s.stream := by
  simp [delay]

/-! ### `readNow` changes the trace only -/

@[simp] theorem readNow_gpfsel (r : ReadReq) : (readNow r s).gpfsel = s.gpfsel := rfl
@[simp] theorem readNow_latch (r : ReadReq) : (readNow r s).latch = s.latch := rfl
@[simp] theorem readNow_cx (r : ReadReq) : (readNow r s).cx = s.cx := rfl
@[simp] theorem readNow_cy (r : ReadReq) : (readNow r s).cy = s.cy := rfl
@[simp] theorem readNow_ctl (r : ReadReq) : (readNow r s).ctl = s.ctl := rfl
@[simp] theorem readNow_prev (r : ReadReq) : (readNow r s).prev = s.prev := rfl
@[simp] theorem readNow_count (r : ReadReq) : (readNow r s).count = s.count := rfl
@[simp] theorem readNow_cp (r : ReadReq) : (readNow r s).cp = s.cp := rfl
@[simp] theorem readNow_acquired (r : ReadReq) : (readNow r s).acquired = s.acquired := rfl
@[simp] theorem readNow_lcdMode (r : ReadReq) : (readNow r s).lcdMode = s.lcdMode := rfl
@[simp] theorem readNow_resp (r : ReadReq) : (readNow r s).resp = s.resp := rfl
@[simp] theorem readNow_status (r : ReadReq) : (readNow r s).status = s.status := rfl
@[simp] theorem readNow_faultCause (r : ReadReq) : (readNow r s).faultCause = s.faultCause := rfl
@[simp] theorem readNow_timerArmed (r : ReadReq) : (readNow r s).timerArmed = s.timerArmed := rfl
@[simp] theorem readNow_timerExpired (r : ReadReq) : (readNow r s).timerExpired = s.timerExpired := rfl
@[simp] theorem readNow_timerFireAt (r : ReadReq) : (readNow r s).timerFireAt = s.timerFireAt := rfl
@[simp] theorem readNow_extIn (r : ReadReq) : (readNow r s).extIn = s.extIn := rfl
@[simp] theorem readNow_now (r : ReadReq) : (readNow r s).now = s.now := rfl
@[simp] theorem readNow_hwAvailable (r : ReadReq) : (readNow r s).hwAvailable = s.hwAvailable := rfl
@[simp] theorem readNow_cfg (r : ReadReq) : (readNow r s).cfg = s.cfg := rfl
@[simp] theorem readNow_stream (r : ReadReq) : (readNow r s).stream = s.stream := rfl
@[simp] theorem readNow_env (r : ReadReq) : (readNow r s).env = s.env := rfl
@[simp] theorem readNow_draws (r : ReadReq) : (readNow r s).draws = s.draws := rfl

@[simp] theorem readNow_trace (r : ReadReq) :
    (readNow r s).trace = s.trace ++ [.read (readOffset s.cfg r) (readValue s r)] := rfl

/-! ### `store` changes the function-select words or the latches -/

@[simp] theorem store_cx (r : WriteReq) (v : Word) : (store r v s).cx = s.cx := by
  cases r <;> rfl
@[simp] theorem store_cy (r : WriteReq) (v : Word) : (store r v s).cy = s.cy := by
  cases r <;> rfl
@[simp] theorem store_ctl (r : WriteReq) (v : Word) : (store r v s).ctl = s.ctl := by
  cases r <;> rfl
@[simp] theorem store_prev (r : WriteReq) (v : Word) : (store r v s).prev = s.prev := by
  cases r <;> rfl
@[simp] theorem store_count (r : WriteReq) (v : Word) : (store r v s).count = s.count := by
  cases r <;> rfl
@[simp] theorem store_cp (r : WriteReq) (v : Word) : (store r v s).cp = s.cp := by
  cases r <;> rfl
@[simp] theorem store_acquired (r : WriteReq) (v : Word) : (store r v s).acquired = s.acquired := by
  cases r <;> rfl
@[simp] theorem store_lcdMode (r : WriteReq) (v : Word) : (store r v s).lcdMode = s.lcdMode := by
  cases r <;> rfl
@[simp] theorem store_resp (r : WriteReq) (v : Word) : (store r v s).resp = s.resp := by
  cases r <;> rfl
@[simp] theorem store_status (r : WriteReq) (v : Word) : (store r v s).status = s.status := by
  cases r <;> rfl
@[simp] theorem store_faultCause (r : WriteReq) (v : Word) : (store r v s).faultCause = s.faultCause := by
  cases r <;> rfl
@[simp] theorem store_timerArmed (r : WriteReq) (v : Word) : (store r v s).timerArmed = s.timerArmed := by
  cases r <;> rfl
@[simp] theorem store_timerExpired (r : WriteReq) (v : Word) : (store r v s).timerExpired = s.timerExpired := by
  cases r <;> rfl
@[simp] theorem store_timerFireAt (r : WriteReq) (v : Word) : (store r v s).timerFireAt = s.timerFireAt := by
  cases r <;> rfl
@[simp] theorem store_extIn (r : WriteReq) (v : Word) : (store r v s).extIn = s.extIn := by
  cases r <;> rfl
@[simp] theorem store_now (r : WriteReq) (v : Word) : (store r v s).now = s.now := by
  cases r <;> rfl
@[simp] theorem store_hwAvailable (r : WriteReq) (v : Word) : (store r v s).hwAvailable = s.hwAvailable := by
  cases r <;> rfl
@[simp] theorem store_cfg (r : WriteReq) (v : Word) : (store r v s).cfg = s.cfg := by
  cases r <;> rfl
@[simp] theorem store_stream (r : WriteReq) (v : Word) : (store r v s).stream = s.stream := by
  cases r <;> rfl
@[simp] theorem store_env (r : WriteReq) (v : Word) : (store r v s).env = s.env := by
  cases r <;> rfl
@[simp] theorem store_draws (r : WriteReq) (v : Word) : (store r v s).draws = s.draws := by
  cases r <;> rfl
@[simp] theorem store_trace (r : WriteReq) (v : Word) : (store r v s).trace = s.trace := by
  cases r <;> rfl

/-! ### `regWrite`: a gap, a store, its `W` -/

@[simp] theorem regWrite_cx (r : WriteReq) (v : Word) : (regWrite r v s).cx = s.cx := by
  simp [regWrite]
@[simp] theorem regWrite_cy (r : WriteReq) (v : Word) : (regWrite r v s).cy = s.cy := by
  simp [regWrite]
@[simp] theorem regWrite_ctl (r : WriteReq) (v : Word) : (regWrite r v s).ctl = s.ctl := by
  simp [regWrite]
@[simp] theorem regWrite_prev (r : WriteReq) (v : Word) : (regWrite r v s).prev = s.prev := by
  simp [regWrite]
@[simp] theorem regWrite_count (r : WriteReq) (v : Word) : (regWrite r v s).count = s.count := by
  simp [regWrite]
@[simp] theorem regWrite_cp (r : WriteReq) (v : Word) : (regWrite r v s).cp = s.cp := by
  simp [regWrite]
@[simp] theorem regWrite_acquired (r : WriteReq) (v : Word) : (regWrite r v s).acquired = s.acquired := by
  simp [regWrite]
@[simp] theorem regWrite_lcdMode (r : WriteReq) (v : Word) : (regWrite r v s).lcdMode = s.lcdMode := by
  simp [regWrite]
@[simp] theorem regWrite_resp (r : WriteReq) (v : Word) : (regWrite r v s).resp = s.resp := by
  simp [regWrite]
@[simp] theorem regWrite_status (r : WriteReq) (v : Word) : (regWrite r v s).status = s.status := by
  simp [regWrite]
@[simp] theorem regWrite_faultCause (r : WriteReq) (v : Word) : (regWrite r v s).faultCause = s.faultCause := by
  simp [regWrite]
@[simp] theorem regWrite_timerFireAt (r : WriteReq) (v : Word) : (regWrite r v s).timerFireAt = s.timerFireAt := by
  simp [regWrite]
@[simp] theorem regWrite_hwAvailable (r : WriteReq) (v : Word) : (regWrite r v s).hwAvailable = s.hwAvailable := by
  simp [regWrite]
@[simp] theorem regWrite_cfg (r : WriteReq) (v : Word) : (regWrite r v s).cfg = s.cfg := by
  simp [regWrite]
@[simp] theorem regWrite_stream (r : WriteReq) (v : Word) : (regWrite r v s).stream = s.stream := by
  simp [regWrite]

/-! ### `pinWrite` changes the latches -/

@[simp] theorem pinWrite_gpfsel (p : Pin) (l : Level) : (pinWrite p l s).gpfsel = s.gpfsel := by
  cases l <;> simp [pinWrite, regWrite, store]
@[simp] theorem pinWrite_cx (p : Pin) (l : Level) : (pinWrite p l s).cx = s.cx := by
  cases l <;> simp [pinWrite, regWrite, store]
@[simp] theorem pinWrite_cy (p : Pin) (l : Level) : (pinWrite p l s).cy = s.cy := by
  cases l <;> simp [pinWrite, regWrite, store]
@[simp] theorem pinWrite_ctl (p : Pin) (l : Level) : (pinWrite p l s).ctl = s.ctl := by
  cases l <;> simp [pinWrite, regWrite, store]
@[simp] theorem pinWrite_prev (p : Pin) (l : Level) : (pinWrite p l s).prev = s.prev := by
  cases l <;> simp [pinWrite, regWrite, store]
@[simp] theorem pinWrite_count (p : Pin) (l : Level) : (pinWrite p l s).count = s.count := by
  cases l <;> simp [pinWrite, regWrite, store]
@[simp] theorem pinWrite_cp (p : Pin) (l : Level) : (pinWrite p l s).cp = s.cp := by
  cases l <;> simp [pinWrite, regWrite, store]
@[simp] theorem pinWrite_acquired (p : Pin) (l : Level) : (pinWrite p l s).acquired = s.acquired := by
  cases l <;> simp [pinWrite, regWrite, store]
@[simp] theorem pinWrite_lcdMode (p : Pin) (l : Level) : (pinWrite p l s).lcdMode = s.lcdMode := by
  cases l <;> simp [pinWrite, regWrite, store]
@[simp] theorem pinWrite_resp (p : Pin) (l : Level) : (pinWrite p l s).resp = s.resp := by
  cases l <;> simp [pinWrite, regWrite, store]
@[simp] theorem pinWrite_status (p : Pin) (l : Level) : (pinWrite p l s).status = s.status := by
  cases l <;> simp [pinWrite, regWrite, store]
@[simp] theorem pinWrite_faultCause (p : Pin) (l : Level) : (pinWrite p l s).faultCause = s.faultCause := by
  cases l <;> simp [pinWrite, regWrite, store]
@[simp] theorem pinWrite_timerFireAt (p : Pin) (l : Level) : (pinWrite p l s).timerFireAt = s.timerFireAt := by
  cases l <;> simp [pinWrite, regWrite, store]
@[simp] theorem pinWrite_hwAvailable (p : Pin) (l : Level) : (pinWrite p l s).hwAvailable = s.hwAvailable := by
  cases l <;> simp [pinWrite, regWrite, store]
@[simp] theorem pinWrite_cfg (p : Pin) (l : Level) : (pinWrite p l s).cfg = s.cfg := by
  cases l <;> simp [pinWrite, regWrite, store]
@[simp] theorem pinWrite_stream (p : Pin) (l : Level) : (pinWrite p l s).stream = s.stream := by
  cases l <;> simp [pinWrite, regWrite, store]

/-! ### the LCD micro-operations change the latches -/

@[simp] theorem setRs_gpfsel (l : Level) : (setRs l s).gpfsel = s.gpfsel := by
  simp [setRs]
@[simp] theorem setRs_cx (l : Level) : (setRs l s).cx = s.cx := by
  simp [setRs]
@[simp] theorem setRs_cy (l : Level) : (setRs l s).cy = s.cy := by
  simp [setRs]
@[simp] theorem setRs_ctl (l : Level) : (setRs l s).ctl = s.ctl := by
  simp [setRs]
@[simp] theorem setRs_prev (l : Level) : (setRs l s).prev = s.prev := by
  simp [setRs]
@[simp] theorem setRs_count (l : Level) : (setRs l s).count = s.count := by
  simp [setRs]
@[simp] theorem setRs_cp (l : Level) : (setRs l s).cp = s.cp := by
  simp [setRs]
@[simp] theorem setRs_acquired (l : Level) : (setRs l s).acquired = s.acquired := by
  simp [setRs]
@[simp] theorem setRs_lcdMode (l : Level) : (setRs l s).lcdMode = s.lcdMode := by
  simp [setRs]
@[simp] theorem setRs_resp (l : Level) : (setRs l s).resp = s.resp := by
  simp [setRs]
@[simp] theorem setRs_status (l : Level) : (setRs l s).status = s.status := by
  simp [setRs]
@[simp] theorem setRs_faultCause (l : Level) : (setRs l s).faultCause = s.faultCause := by
  simp [setRs]
@[simp] theorem setRs_timerFireAt (l : Level) : (setRs l s).timerFireAt = s.timerFireAt := by
  simp [setRs]
@[simp] theorem setRs_hwAvailable (l : Level) : (setRs l s).hwAvailable = s.hwAvailable := by
  simp [setRs]
@[simp] theorem setRs_cfg (l : Level) : (setRs l s).cfg = s.cfg := by
  simp [setRs]
@[simp] theorem setRs_stream (l : Level) : (setRs l s).stream = s.stream := by
  simp [setRs]

/-! ### `emitNibble` -/

@[simp] theorem emitNibble_gpfsel (n : Nibble) : (emitNibble n s).gpfsel = s.gpfsel := by
  simp [emitNibble]
@[simp] theorem emitNibble_cx (n : Nibble) : (emitNibble n s).cx = s.cx := by
  simp [emitNibble]
@[simp] theorem emitNibble_cy (n : Nibble) : (emitNibble n s).cy = s.cy := by
  simp [emitNibble]
@[simp] theorem emitNibble_ctl (n : Nibble) : (emitNibble n s).ctl = s.ctl := by
  simp [emitNibble]
@[simp] theorem emitNibble_prev (n : Nibble) : (emitNibble n s).prev = s.prev := by
  simp [emitNibble]
@[simp] theorem emitNibble_count (n : Nibble) : (emitNibble n s).count = s.count := by
  simp [emitNibble]
@[simp] theorem emitNibble_cp (n : Nibble) : (emitNibble n s).cp = s.cp := by
  simp [emitNibble]
@[simp] theorem emitNibble_acquired (n : Nibble) : (emitNibble n s).acquired = s.acquired := by
  simp [emitNibble]
@[simp] theorem emitNibble_lcdMode (n : Nibble) : (emitNibble n s).lcdMode = s.lcdMode := by
  simp [emitNibble]
@[simp] theorem emitNibble_resp (n : Nibble) : (emitNibble n s).resp = s.resp := by
  simp [emitNibble]
@[simp] theorem emitNibble_status (n : Nibble) : (emitNibble n s).status = s.status := by
  simp [emitNibble]
@[simp] theorem emitNibble_faultCause (n : Nibble) : (emitNibble n s).faultCause = s.faultCause := by
  simp [emitNibble]
@[simp] theorem emitNibble_timerFireAt (n : Nibble) : (emitNibble n s).timerFireAt = s.timerFireAt := by
  simp [emitNibble]
@[simp] theorem emitNibble_hwAvailable (n : Nibble) : (emitNibble n s).hwAvailable = s.hwAvailable := by
  simp [emitNibble]
@[simp] theorem emitNibble_cfg (n : Nibble) : (emitNibble n s).cfg = s.cfg := by
  simp [emitNibble]
@[simp] theorem emitNibble_stream (n : Nibble) : (emitNibble n s).stream = s.stream := by
  simp [emitNibble]

/-! ### `strobeTo` -/

@[simp] theorem strobeTo_gpfsel (l : Level) : (strobeTo l s).gpfsel = s.gpfsel := by
  simp [strobeTo]
@[simp] theorem strobeTo_cx (l : Level) : (strobeTo l s).cx = s.cx := by
  simp [strobeTo]
@[simp] theorem strobeTo_cy (l : Level) : (strobeTo l s).cy = s.cy := by
  simp [strobeTo]
@[simp] theorem strobeTo_ctl (l : Level) : (strobeTo l s).ctl = s.ctl := by
  simp [strobeTo]
@[simp] theorem strobeTo_prev (l : Level) : (strobeTo l s).prev = s.prev := by
  simp [strobeTo]
@[simp] theorem strobeTo_count (l : Level) : (strobeTo l s).count = s.count := by
  simp [strobeTo]
@[simp] theorem strobeTo_cp (l : Level) : (strobeTo l s).cp = s.cp := by
  simp [strobeTo]
@[simp] theorem strobeTo_acquired (l : Level) : (strobeTo l s).acquired = s.acquired := by
  simp [strobeTo]
@[simp] theorem strobeTo_lcdMode (l : Level) : (strobeTo l s).lcdMode = s.lcdMode := by
  simp [strobeTo]
@[simp] theorem strobeTo_resp (l : Level) : (strobeTo l s).resp = s.resp := by
  simp [strobeTo]
@[simp] theorem strobeTo_status (l : Level) : (strobeTo l s).status = s.status := by
  simp [strobeTo]
@[simp] theorem strobeTo_faultCause (l : Level) : (strobeTo l s).faultCause = s.faultCause := by
  simp [strobeTo]
@[simp] theorem strobeTo_timerFireAt (l : Level) : (strobeTo l s).timerFireAt = s.timerFireAt := by
  simp [strobeTo]
@[simp] theorem strobeTo_hwAvailable (l : Level) : (strobeTo l s).hwAvailable = s.hwAvailable := by
  simp [strobeTo]
@[simp] theorem strobeTo_cfg (l : Level) : (strobeTo l s).cfg = s.cfg := by
  simp [strobeTo]
@[simp] theorem strobeTo_stream (l : Level) : (strobeTo l s).stream = s.stream := by
  simp [strobeTo]

/-! ### `strobe` -/

@[simp] theorem strobe_gpfsel  : (strobe s).gpfsel = s.gpfsel := by
  simp [strobe]
@[simp] theorem strobe_cx  : (strobe s).cx = s.cx := by
  simp [strobe]
@[simp] theorem strobe_cy  : (strobe s).cy = s.cy := by
  simp [strobe]
@[simp] theorem strobe_ctl  : (strobe s).ctl = s.ctl := by
  simp [strobe]
@[simp] theorem strobe_prev  : (strobe s).prev = s.prev := by
  simp [strobe]
@[simp] theorem strobe_count  : (strobe s).count = s.count := by
  simp [strobe]
@[simp] theorem strobe_cp  : (strobe s).cp = s.cp := by
  simp [strobe]
@[simp] theorem strobe_acquired  : (strobe s).acquired = s.acquired := by
  simp [strobe]
@[simp] theorem strobe_lcdMode  : (strobe s).lcdMode = s.lcdMode := by
  simp [strobe]
@[simp] theorem strobe_resp  : (strobe s).resp = s.resp := by
  simp [strobe]
@[simp] theorem strobe_status  : (strobe s).status = s.status := by
  simp [strobe]
@[simp] theorem strobe_faultCause  : (strobe s).faultCause = s.faultCause := by
  simp [strobe]
@[simp] theorem strobe_timerFireAt  : (strobe s).timerFireAt = s.timerFireAt := by
  simp [strobe]
@[simp] theorem strobe_hwAvailable  : (strobe s).hwAvailable = s.hwAvailable := by
  simp [strobe]
@[simp] theorem strobe_cfg  : (strobe s).cfg = s.cfg := by
  simp [strobe]
@[simp] theorem strobe_stream  : (strobe s).stream = s.stream := by
  simp [strobe]

/-! ### `sendByte` -/

@[simp] theorem sendByte_gpfsel (l : Level) (b : Byte) : (sendByte l b s).gpfsel = s.gpfsel := by
  simp [sendByte]
@[simp] theorem sendByte_cx (l : Level) (b : Byte) : (sendByte l b s).cx = s.cx := by
  simp [sendByte]
@[simp] theorem sendByte_cy (l : Level) (b : Byte) : (sendByte l b s).cy = s.cy := by
  simp [sendByte]
@[simp] theorem sendByte_ctl (l : Level) (b : Byte) : (sendByte l b s).ctl = s.ctl := by
  simp [sendByte]
@[simp] theorem sendByte_prev (l : Level) (b : Byte) : (sendByte l b s).prev = s.prev := by
  simp [sendByte]
@[simp] theorem sendByte_count (l : Level) (b : Byte) : (sendByte l b s).count = s.count := by
  simp [sendByte]
@[simp] theorem sendByte_cp (l : Level) (b : Byte) : (sendByte l b s).cp = s.cp := by
  simp [sendByte]
@[simp] theorem sendByte_acquired (l : Level) (b : Byte) : (sendByte l b s).acquired = s.acquired := by
  simp [sendByte]
@[simp] theorem sendByte_lcdMode (l : Level) (b : Byte) : (sendByte l b s).lcdMode = s.lcdMode := by
  simp [sendByte]
@[simp] theorem sendByte_resp (l : Level) (b : Byte) : (sendByte l b s).resp = s.resp := by
  simp [sendByte]
@[simp] theorem sendByte_status (l : Level) (b : Byte) : (sendByte l b s).status = s.status := by
  simp [sendByte]
@[simp] theorem sendByte_faultCause (l : Level) (b : Byte) : (sendByte l b s).faultCause = s.faultCause := by
  simp [sendByte]
@[simp] theorem sendByte_timerFireAt (l : Level) (b : Byte) : (sendByte l b s).timerFireAt = s.timerFireAt := by
  simp [sendByte]
@[simp] theorem sendByte_hwAvailable (l : Level) (b : Byte) : (sendByte l b s).hwAvailable = s.hwAvailable := by
  simp [sendByte]
@[simp] theorem sendByte_cfg (l : Level) (b : Byte) : (sendByte l b s).cfg = s.cfg := by
  simp [sendByte]
@[simp] theorem sendByte_stream (l : Level) (b : Byte) : (sendByte l b s).stream = s.stream := by
  simp [sendByte]

/-! ### `put4cmd` -/

@[simp] theorem put4cmd_gpfsel (n : Nibble) : (put4cmd n s).gpfsel = s.gpfsel := by
  simp [put4cmd]
@[simp] theorem put4cmd_cx (n : Nibble) : (put4cmd n s).cx = s.cx := by
  simp [put4cmd]
@[simp] theorem put4cmd_cy (n : Nibble) : (put4cmd n s).cy = s.cy := by
  simp [put4cmd]
@[simp] theorem put4cmd_ctl (n : Nibble) : (put4cmd n s).ctl = s.ctl := by
  simp [put4cmd]
@[simp] theorem put4cmd_prev (n : Nibble) : (put4cmd n s).prev = s.prev := by
  simp [put4cmd]
@[simp] theorem put4cmd_count (n : Nibble) : (put4cmd n s).count = s.count := by
  simp [put4cmd]
@[simp] theorem put4cmd_cp (n : Nibble) : (put4cmd n s).cp = s.cp := by
  simp [put4cmd]
@[simp] theorem put4cmd_acquired (n : Nibble) : (put4cmd n s).acquired = s.acquired := by
  simp [put4cmd]
@[simp] theorem put4cmd_lcdMode (n : Nibble) : (put4cmd n s).lcdMode = s.lcdMode := by
  simp [put4cmd]
@[simp] theorem put4cmd_resp (n : Nibble) : (put4cmd n s).resp = s.resp := by
  simp [put4cmd]
@[simp] theorem put4cmd_status (n : Nibble) : (put4cmd n s).status = s.status := by
  simp [put4cmd]
@[simp] theorem put4cmd_faultCause (n : Nibble) : (put4cmd n s).faultCause = s.faultCause := by
  simp [put4cmd]
@[simp] theorem put4cmd_timerFireAt (n : Nibble) : (put4cmd n s).timerFireAt = s.timerFireAt := by
  simp [put4cmd]
@[simp] theorem put4cmd_hwAvailable (n : Nibble) : (put4cmd n s).hwAvailable = s.hwAvailable := by
  simp [put4cmd]
@[simp] theorem put4cmd_cfg (n : Nibble) : (put4cmd n s).cfg = s.cfg := by
  simp [put4cmd]
@[simp] theorem put4cmd_stream (n : Nibble) : (put4cmd n s).stream = s.stream := by
  simp [put4cmd]

/-! ### `sendCtl` -/

@[simp] theorem sendCtl_gpfsel  : (sendCtl s).gpfsel = s.gpfsel := by
  simp [sendCtl]
@[simp] theorem sendCtl_cx  : (sendCtl s).cx = s.cx := by
  simp [sendCtl]
@[simp] theorem sendCtl_cy  : (sendCtl s).cy = s.cy := by
  simp [sendCtl]
@[simp] theorem sendCtl_ctl  : (sendCtl s).ctl = s.ctl := by
  simp [sendCtl]
@[simp] theorem sendCtl_prev  : (sendCtl s).prev = s.prev := by
  simp [sendCtl]
@[simp] theorem sendCtl_count  : (sendCtl s).count = s.count := by
  simp [sendCtl]
@[simp] theorem sendCtl_cp  : (sendCtl s).cp = s.cp := by
  simp [sendCtl]
@[simp] theorem sendCtl_acquired  : (sendCtl s).acquired = s.acquired := by
  simp [sendCtl]
@[simp] theorem sendCtl_lcdMode  : (sendCtl s).lcdMode = s.lcdMode := by
  simp [sendCtl]
@[simp] theorem sendCtl_resp  : (sendCtl s).resp = s.resp := by
  simp [sendCtl]
@[simp] theorem sendCtl_status  : (sendCtl s).status = s.status := by
  simp [sendCtl]
@[simp] theorem sendCtl_faultCause  : (sendCtl s).faultCause = s.faultCause := by
  simp [sendCtl]
@[simp] theorem sendCtl_timerFireAt  : (sendCtl s).timerFireAt = s.timerFireAt := by
  simp [sendCtl]
@[simp] theorem sendCtl_hwAvailable  : (sendCtl s).hwAvailable = s.hwAvailable := by
  simp [sendCtl]
@[simp] theorem sendCtl_cfg  : (sendCtl s).cfg = s.cfg := by
  simp [sendCtl]
@[simp] theorem sendCtl_stream  : (sendCtl s).stream = s.stream := by
  simp [sendCtl]

/-! ### `setCtl` also changes `ctl` -/

@[simp] theorem setCtl_gpfsel (i : Nat) (v : Bool) : (setCtl i v s).gpfsel = s.gpfsel := by
  simp [setCtl]
@[simp] theorem setCtl_cx (i : Nat) (v : Bool) : (setCtl i v s).cx = s.cx := by
  simp [setCtl]
@[simp] theorem setCtl_cy (i : Nat) (v : Bool) : (setCtl i v s).cy = s.cy := by
  simp [setCtl]
@[simp] theorem setCtl_prev (i : Nat) (v : Bool) : (setCtl i v s).prev = s.prev := by
  simp [setCtl]
@[simp] theorem setCtl_count (i : Nat) (v : Bool) : (setCtl i v s).count = s.count := by
  simp [setCtl]
@[simp] theorem setCtl_cp (i : Nat) (v : Bool) : (setCtl i v s).cp = s.cp := by
  simp [setCtl]
@[simp] theorem setCtl_acquired (i : Nat) (v : Bool) : (setCtl i v s).acquired = s.acquired := by
  simp [setCtl]
@[simp] theorem setCtl_lcdMode (i : Nat) (v : Bool) : (setCtl i v s).lcdMode = s.lcdMode := by
  simp [setCtl]
@[simp] theorem setCtl_resp (i : Nat) (v : Bool) : (setCtl i v s).resp = s.resp := by
  simp [setCtl]
@[simp] theorem setCtl_status (i : Nat) (v : Bool) : (setCtl i v s).status = s.status := by
  simp [setCtl]
@[simp] theorem setCtl_faultCause (i : Nat) (v : Bool) : (setCtl i v s).faultCause = s.faultCause := by
  simp [setCtl]
@[simp] theorem setCtl_timerFireAt (i : Nat) (v : Bool) : (setCtl i v s).timerFireAt = s.timerFireAt := by
  simp [setCtl]
@[simp] theorem setCtl_hwAvailable (i : Nat) (v : Bool) : (setCtl i v s).hwAvailable = s.hwAvailable := by
  simp [setCtl]
@[simp] theorem setCtl_cfg (i : Nat) (v : Bool) : (setCtl i v s).cfg = s.cfg := by
  simp [setCtl]
@[simp] theorem setCtl_stream (i : Nat) (v : Bool) : (setCtl i v s).stream = s.stream := by
  simp [setCtl]

@[simp] theorem setCtl_ctl (i : Nat) (v : Bool) : (setCtl i v s).ctl = setCtlBit s.ctl i v := by
  simp [setCtl]

/-! ### `functionSet8` -/

@[simp] theorem functionSet8_gpfsel  : (functionSet8 s).gpfsel = s.gpfsel := by
  simp [functionSet8]
@[simp] theorem functionSet8_cx  : (functionSet8 s).cx = s.cx := by
  simp [functionSet8]
@[simp] theorem functionSet8_cy  : (functionSet8 s).cy = s.cy := by
  simp [functionSet8]
@[simp] theorem functionSet8_ctl  : (functionSet8 s).ctl = s.ctl := by
  simp [functionSet8]
@[simp] theorem functionSet8_prev  : (functionSet8 s).prev = s.prev := by
  simp [functionSet8]
@[simp] theorem functionSet8_count  : (functionSet8 s).count = s.count := by
  simp [functionSet8]
@[simp] theorem functionSet8_cp  : (functionSet8 s).cp = s.cp := by
  simp [functionSet8]
@[simp] theorem functionSet8_acquired  : (functionSet8 s).acquired = s.acquired := by
  simp [functionSet8]
@[simp] theorem functionSet8_lcdMode  : (functionSet8 s).lcdMode = s.lcdMode := by
  simp [functionSet8]
@[simp] theorem functionSet8_resp  : (functionSet8 s).resp = s.resp := by
  simp [functionSet8]
@[simp] theorem functionSet8_status  : (functionSet8 s).status = s.status := by
  simp [functionSet8]
@[simp] theorem functionSet8_faultCause  : (functionSet8 s).faultCause = s.faultCause := by
  simp [functionSet8]
@[simp] theorem functionSet8_timerFireAt  : (functionSet8 s).timerFireAt = s.timerFireAt := by
  simp [functionSet8]
@[simp] theorem functionSet8_hwAvailable  : (functionSet8 s).hwAvailable = s.hwAvailable := by
  simp [functionSet8]
@[simp] theorem functionSet8_cfg  : (functionSet8 s).cfg = s.cfg := by
  simp [functionSet8]
@[simp] theorem functionSet8_stream  : (functionSet8 s).stream = s.stream := by
  simp [functionSet8]

/-! ### `clearOn` also changes the cursor -/

@[simp] theorem clearOn_gpfsel  : (clearOn s).gpfsel = s.gpfsel := by
  simp [clearOn]
@[simp] theorem clearOn_ctl  : (clearOn s).ctl = s.ctl := by
  simp [clearOn]
@[simp] theorem clearOn_prev  : (clearOn s).prev = s.prev := by
  simp [clearOn]
@[simp] theorem clearOn_count  : (clearOn s).count = s.count := by
  simp [clearOn]
@[simp] theorem clearOn_cp  : (clearOn s).cp = s.cp := by
  simp [clearOn]
@[simp] theorem clearOn_acquired  : (clearOn s).acquired = s.acquired := by
  simp [clearOn]
@[simp] theorem clearOn_lcdMode  : (clearOn s).lcdMode = s.lcdMode := by
  simp [clearOn]
@[simp] theorem clearOn_resp  : (clearOn s).resp = s.resp := by
  simp [clearOn]
@[simp] theorem clearOn_status  : (clearOn s).status = s.status := by
  simp [clearOn]
@[simp] theorem clearOn_faultCause  : (clearOn s).faultCause = s.faultCause := by
  simp [clearOn]
@[simp] theorem clearOn_timerFireAt  : (clearOn s).timerFireAt = s.timerFireAt := by
  simp [clearOn]
@[simp] theorem clearOn_hwAvailable  : (clearOn s).hwAvailable = s.hwAvailable := by
  simp [clearOn]
@[simp] theorem clearOn_cfg  : (clearOn s).cfg = s.cfg := by
  simp [clearOn]
@[simp] theorem clearOn_stream  : (clearOn s).stream = s.stream := by
  simp [clearOn]

@[simp] theorem clearOn_cx : (clearOn s).cx = 0 := rfl
@[simp] theorem clearOn_cy : (clearOn s).cy = 0 := rfl

/-! ### `advance` changes `cp` only -/

@[simp] theorem advance_gpfsel  : (advance s).gpfsel = s.gpfsel := rfl
@[simp] theorem advance_latch  : (advance s).latch = s.latch := rfl
@[simp] theorem advance_cx  : (advance s).cx = s.cx := rfl
@[simp] theorem advance_cy  : (advance s).cy = s.cy := rfl
@[simp] theorem advance_ctl  : (advance s).ctl = s.ctl := rfl
@[simp] theorem advance_prev  : (advance s).prev = s.prev := rfl
@[simp] theorem advance_count  : (advance s).count = s.count := rfl
@[simp] theorem advance_acquired  : (advance s).acquired = s.acquired := rfl
@[simp] theorem advance_lcdMode  : (advance s).lcdMode = s.lcdMode := rfl
@[simp] theorem advance_resp  : (advance s).resp = s.resp := rfl
@[simp] theorem advance_status  : (advance s).status = s.status := rfl
@[simp] theorem advance_faultCause  : (advance s).faultCause = s.faultCause := rfl
@[simp] theorem advance_timerArmed  : (advance s).timerArmed = s.timerArmed := rfl
@[simp] theorem advance_timerExpired  : (advance s).timerExpired = s.timerExpired := rfl
@[simp] theorem advance_timerFireAt  : (advance s).timerFireAt = s.timerFireAt := rfl
@[simp] theorem advance_extIn  : (advance s).extIn = s.extIn := rfl
@[simp] theorem advance_now  : (advance s).now = s.now := rfl
@[simp] theorem advance_hwAvailable  : (advance s).hwAvailable = s.hwAvailable := rfl
@[simp] theorem advance_cfg  : (advance s).cfg = s.cfg := rfl
@[simp] theorem advance_stream  : (advance s).stream = s.stream := rfl
@[simp] theorem advance_env  : (advance s).env = s.env := rfl
@[simp] theorem advance_draws  : (advance s).draws = s.draws := rfl
@[simp] theorem advance_trace  : (advance s).trace = s.trace := rfl

@[simp] theorem advance_cp : (advance s).cp = s.cp + 1 := rfl

/-! ### fault entry (R250): nothing else changes -/

@[simp] theorem faultEntry_gpfsel (f : BlockFault) : (faultEntry f s).gpfsel = s.gpfsel := rfl
@[simp] theorem faultEntry_latch (f : BlockFault) : (faultEntry f s).latch = s.latch := rfl
@[simp] theorem faultEntry_cx (f : BlockFault) : (faultEntry f s).cx = s.cx := rfl
@[simp] theorem faultEntry_cy (f : BlockFault) : (faultEntry f s).cy = s.cy := rfl
@[simp] theorem faultEntry_ctl (f : BlockFault) : (faultEntry f s).ctl = s.ctl := rfl
@[simp] theorem faultEntry_prev (f : BlockFault) : (faultEntry f s).prev = s.prev := rfl
@[simp] theorem faultEntry_count (f : BlockFault) : (faultEntry f s).count = s.count := rfl
@[simp] theorem faultEntry_cp (f : BlockFault) : (faultEntry f s).cp = s.cp := rfl
@[simp] theorem faultEntry_lcdMode (f : BlockFault) : (faultEntry f s).lcdMode = s.lcdMode := rfl
@[simp] theorem faultEntry_resp (f : BlockFault) : (faultEntry f s).resp = s.resp := rfl
@[simp] theorem faultEntry_timerExpired (f : BlockFault) : (faultEntry f s).timerExpired = s.timerExpired := rfl
@[simp] theorem faultEntry_timerFireAt (f : BlockFault) : (faultEntry f s).timerFireAt = s.timerFireAt := rfl
@[simp] theorem faultEntry_extIn (f : BlockFault) : (faultEntry f s).extIn = s.extIn := rfl
@[simp] theorem faultEntry_now (f : BlockFault) : (faultEntry f s).now = s.now := rfl
@[simp] theorem faultEntry_hwAvailable (f : BlockFault) : (faultEntry f s).hwAvailable = s.hwAvailable := rfl
@[simp] theorem faultEntry_cfg (f : BlockFault) : (faultEntry f s).cfg = s.cfg := rfl
@[simp] theorem faultEntry_stream (f : BlockFault) : (faultEntry f s).stream = s.stream := rfl
@[simp] theorem faultEntry_env (f : BlockFault) : (faultEntry f s).env = s.env := rfl
@[simp] theorem faultEntry_draws (f : BlockFault) : (faultEntry f s).draws = s.draws := rfl

@[simp] theorem faultEntry_faultCause (f : BlockFault) : (faultEntry f s).faultCause = faultCode f := rfl
@[simp] theorem faultEntry_status (f : BlockFault) : (faultEntry f s).status = .faulted := rfl
@[simp] theorem faultEntry_acquired (f : BlockFault) : (faultEntry f s).acquired = false := rfl
@[simp] theorem faultEntry_timerArmed (f : BlockFault) : (faultEntry f s).timerArmed = false := rfl
@[simp] theorem faultEntry_trace (f : BlockFault) : (faultEntry f s).trace = s.trace ++ [.fault (faultCode f)] := rfl

/-! ### `countPress` changes `count` only -/

@[simp] theorem countPress_gpfsel  : (countPress s).gpfsel = s.gpfsel := rfl
@[simp] theorem countPress_latch  : (countPress s).latch = s.latch := rfl
@[simp] theorem countPress_cx  : (countPress s).cx = s.cx := rfl
@[simp] theorem countPress_cy  : (countPress s).cy = s.cy := rfl
@[simp] theorem countPress_ctl  : (countPress s).ctl = s.ctl := rfl
@[simp] theorem countPress_prev  : (countPress s).prev = s.prev := rfl
@[simp] theorem countPress_cp  : (countPress s).cp = s.cp := rfl
@[simp] theorem countPress_acquired  : (countPress s).acquired = s.acquired := rfl
@[simp] theorem countPress_lcdMode  : (countPress s).lcdMode = s.lcdMode := rfl
@[simp] theorem countPress_resp  : (countPress s).resp = s.resp := rfl
@[simp] theorem countPress_status  : (countPress s).status = s.status := rfl
@[simp] theorem countPress_faultCause  : (countPress s).faultCause = s.faultCause := rfl
@[simp] theorem countPress_timerArmed  : (countPress s).timerArmed = s.timerArmed := rfl
@[simp] theorem countPress_timerExpired  : (countPress s).timerExpired = s.timerExpired := rfl
@[simp] theorem countPress_timerFireAt  : (countPress s).timerFireAt = s.timerFireAt := rfl
@[simp] theorem countPress_extIn  : (countPress s).extIn = s.extIn := rfl
@[simp] theorem countPress_now  : (countPress s).now = s.now := rfl
@[simp] theorem countPress_hwAvailable  : (countPress s).hwAvailable = s.hwAvailable := rfl
@[simp] theorem countPress_cfg  : (countPress s).cfg = s.cfg := rfl
@[simp] theorem countPress_stream  : (countPress s).stream = s.stream := rfl
@[simp] theorem countPress_env  : (countPress s).env = s.env := rfl
@[simp] theorem countPress_draws  : (countPress s).draws = s.draws := rfl
@[simp] theorem countPress_trace  : (countPress s).trace = s.trace := rfl

@[simp] theorem countPress_count : (countPress s).count = s.count + 1 := rfl

/-! ### `setPrev` changes `prev` only -/

@[simp] theorem setPrev_gpfsel (l : Level) : (setPrev l s).gpfsel = s.gpfsel := rfl
@[simp] theorem setPrev_latch (l : Level) : (setPrev l s).latch = s.latch := rfl
@[simp] theorem setPrev_cx (l : Level) : (setPrev l s).cx = s.cx := rfl
@[simp] theorem setPrev_cy (l : Level) : (setPrev l s).cy = s.cy := rfl
@[simp] theorem setPrev_ctl (l : Level) : (setPrev l s).ctl = s.ctl := rfl
@[simp] theorem setPrev_count (l : Level) : (setPrev l s).count = s.count := rfl
@[simp] theorem setPrev_cp (l : Level) : (setPrev l s).cp = s.cp := rfl
@[simp] theorem setPrev_acquired (l : Level) : (setPrev l s).acquired = s.acquired := rfl
@[simp] theorem setPrev_lcdMode (l : Level) : (setPrev l s).lcdMode = s.lcdMode := rfl
@[simp] theorem setPrev_resp (l : Level) : (setPrev l s).resp = s.resp := rfl
@[simp] theorem setPrev_status (l : Level) : (setPrev l s).status = s.status := rfl
@[simp] theorem setPrev_faultCause (l : Level) : (setPrev l s).faultCause = s.faultCause := rfl
@[simp] theorem setPrev_timerArmed (l : Level) : (setPrev l s).timerArmed = s.timerArmed := rfl
@[simp] theorem setPrev_timerExpired (l : Level) : (setPrev l s).timerExpired = s.timerExpired := rfl
@[simp] theorem setPrev_timerFireAt (l : Level) : (setPrev l s).timerFireAt = s.timerFireAt := rfl
@[simp] theorem setPrev_extIn (l : Level) : (setPrev l s).extIn = s.extIn := rfl
@[simp] theorem setPrev_now (l : Level) : (setPrev l s).now = s.now := rfl
@[simp] theorem setPrev_hwAvailable (l : Level) : (setPrev l s).hwAvailable = s.hwAvailable := rfl
@[simp] theorem setPrev_cfg (l : Level) : (setPrev l s).cfg = s.cfg := rfl
@[simp] theorem setPrev_stream (l : Level) : (setPrev l s).stream = s.stream := rfl
@[simp] theorem setPrev_env (l : Level) : (setPrev l s).env = s.env := rfl
@[simp] theorem setPrev_draws (l : Level) : (setPrev l s).draws = s.draws := rfl
@[simp] theorem setPrev_trace (l : Level) : (setPrev l s).trace = s.trace := rfl

@[simp] theorem setPrev_prev (l : Level) : (setPrev l s).prev = l := rfl

/-! ### `takeLevel` changes the loop's two variables -/

@[simp] theorem takeLevel_gpfsel (l : Level) : (takeLevel l s).gpfsel = s.gpfsel := by
  unfold takeLevel; split <;> [rfl; (split <;> simp)]
@[simp] theorem takeLevel_latch (l : Level) : (takeLevel l s).latch = s.latch := by
  unfold takeLevel; split <;> [rfl; (split <;> simp)]
@[simp] theorem takeLevel_cx (l : Level) : (takeLevel l s).cx = s.cx := by
  unfold takeLevel; split <;> [rfl; (split <;> simp)]
@[simp] theorem takeLevel_cy (l : Level) : (takeLevel l s).cy = s.cy := by
  unfold takeLevel; split <;> [rfl; (split <;> simp)]
@[simp] theorem takeLevel_ctl (l : Level) : (takeLevel l s).ctl = s.ctl := by
  unfold takeLevel; split <;> [rfl; (split <;> simp)]
@[simp] theorem takeLevel_cp (l : Level) : (takeLevel l s).cp = s.cp := by
  unfold takeLevel; split <;> [rfl; (split <;> simp)]
@[simp] theorem takeLevel_acquired (l : Level) : (takeLevel l s).acquired = s.acquired := by
  unfold takeLevel; split <;> [rfl; (split <;> simp)]
@[simp] theorem takeLevel_lcdMode (l : Level) : (takeLevel l s).lcdMode = s.lcdMode := by
  unfold takeLevel; split <;> [rfl; (split <;> simp)]
@[simp] theorem takeLevel_resp (l : Level) : (takeLevel l s).resp = s.resp := by
  unfold takeLevel; split <;> [rfl; (split <;> simp)]
@[simp] theorem takeLevel_status (l : Level) : (takeLevel l s).status = s.status := by
  unfold takeLevel; split <;> [rfl; (split <;> simp)]
@[simp] theorem takeLevel_faultCause (l : Level) : (takeLevel l s).faultCause = s.faultCause := by
  unfold takeLevel; split <;> [rfl; (split <;> simp)]
@[simp] theorem takeLevel_timerFireAt (l : Level) : (takeLevel l s).timerFireAt = s.timerFireAt := by
  unfold takeLevel; split <;> [rfl; (split <;> simp)]
@[simp] theorem takeLevel_hwAvailable (l : Level) : (takeLevel l s).hwAvailable = s.hwAvailable := by
  unfold takeLevel; split <;> [rfl; (split <;> simp)]
@[simp] theorem takeLevel_cfg (l : Level) : (takeLevel l s).cfg = s.cfg := by
  unfold takeLevel; split <;> [rfl; (split <;> simp)]
@[simp] theorem takeLevel_stream (l : Level) : (takeLevel l s).stream = s.stream := by
  unfold takeLevel; split <;> [rfl; (split <;> simp)]

/-! ### `pollOn` -/

@[simp] theorem pollOn_gpfsel  : (pollOn s).gpfsel = s.gpfsel := by
  simp [pollOn]
@[simp] theorem pollOn_latch  : (pollOn s).latch = s.latch := by
  simp [pollOn]
@[simp] theorem pollOn_cx  : (pollOn s).cx = s.cx := by
  simp [pollOn]
@[simp] theorem pollOn_cy  : (pollOn s).cy = s.cy := by
  simp [pollOn]
@[simp] theorem pollOn_ctl  : (pollOn s).ctl = s.ctl := by
  simp [pollOn]
@[simp] theorem pollOn_cp  : (pollOn s).cp = s.cp := by
  simp [pollOn]
@[simp] theorem pollOn_acquired  : (pollOn s).acquired = s.acquired := by
  simp [pollOn]
@[simp] theorem pollOn_lcdMode  : (pollOn s).lcdMode = s.lcdMode := by
  simp [pollOn]
@[simp] theorem pollOn_resp  : (pollOn s).resp = s.resp := by
  simp [pollOn]
@[simp] theorem pollOn_status  : (pollOn s).status = s.status := by
  simp [pollOn]
@[simp] theorem pollOn_faultCause  : (pollOn s).faultCause = s.faultCause := by
  simp [pollOn]
@[simp] theorem pollOn_timerFireAt  : (pollOn s).timerFireAt = s.timerFireAt := by
  simp [pollOn]
@[simp] theorem pollOn_hwAvailable  : (pollOn s).hwAvailable = s.hwAvailable := by
  simp [pollOn]
@[simp] theorem pollOn_cfg  : (pollOn s).cfg = s.cfg := by
  simp [pollOn]
@[simp] theorem pollOn_stream  : (pollOn s).stream = s.stream := by
  simp [pollOn]

end Sys2Proof.Machine
end

