-- ==== Sys2Proof/Laws/Ops.lean ====
section
/-! SUPPORT. For each shared operation what it can do, said once: the gap, the delay, the register accesses, the checks before a
command, fetching, the end of a wait. -/

namespace Sys2Proof.Machine

/-! ### The visible trace -/

@[simp] theorem visible_nil : visible [] = [] := rfl

@[simp] theorem visible_append (a b : List Event) : visible (a ++ b) = visible a ++ visible b := by
  simp [visible]

@[simp] theorem visible_expiry : visible [.expiry] = [] := rfl

@[simp] theorem visible_write (o : Nat) (v : Word) (es : List Event) :
    visible (.write o v :: es) = .write o v :: visible es := by simp [visible]

@[simp] theorem visible_read (o : Nat) (v : Word) (es : List Event) :
    visible (.read o v :: es) = .read o v :: visible es := by simp [visible]

@[simp] theorem visible_delay (t : Nat) (es : List Event) : visible (.delay t :: es) = .delay t :: visible es := by
  simp [visible]

@[simp] theorem visible_fault (c : Byte) (es : List Event) : visible (.fault c :: es) = .fault c :: visible es := by
  simp [visible]

/-! ### The gap -/

/-- The timer agent either does nothing or takes the enabled expiry step. -/
theorem timerAgent_cases (b : Bool) (s : State) :
    (timerAgent b s = s) ∨ (timerAgent b s = expiryStep s ∧ s.timerArmed = true ∧ s.timerFireAt ≤ s.now) := by
  unfold timerAgent
  split
  · rename_i h
    simp [expiryEnabled] at h
    exact .inr ⟨rfl, h.1.1, h.1.2⟩
  · exact .inl rfl

@[simp] theorem timerAgent_visible (b : Bool) (s : State) : visible (timerAgent b s).trace = visible s.trace := by
  rcases timerAgent_cases b s with h | ⟨h, -, -⟩ <;> simp [h]

@[simp] theorem gapWith_visible (a : Nat) (m : Bool) (s : State) :
    visible (gapWith a m s).trace = visible s.trace := by simp [gapWith]

/-- While the timer is disarmed no expiry step can occur (R193, R205). -/
theorem timerAgent_disarmed {s : State} (b : Bool) (h : s.timerArmed = false) : timerAgent b s = s := by
  simp [timerAgent, expiryEnabled, h]

theorem gapWith_disarmed {s : State} (a : Nat) (m : Bool) (h : s.timerArmed = false) :
    (gapWith a m s).timerArmed = false ∧ (gapWith a m s).timerExpired = s.timerExpired ∧
      (gapWith a m s).trace = s.trace := by
  unfold gapWith
  rw [timerAgent_disarmed _ (by simpa using h)]
  simp [h]

/-- A gap lasts at least as long as it must. -/
theorem gapWith_now (a : Nat) (m : Bool) (s : State) : s.now + a ≤ (gapWith a m s).now := by
  simp only [gapWith, timerAgent_now, pinChange_now, tick_now, dropMove_now]
  omega

@[simp] theorem gap_visible (s : State) : visible (gap s).trace = visible s.trace := gapWith_visible 0 false s

theorem gap_disarmed {s : State} (h : s.timerArmed = false) :
    (gap s).timerArmed = false ∧ (gap s).timerExpired = s.timerExpired ∧ (gap s).trace = s.trace :=
  gapWith_disarmed 0 false h

theorem gap_now (s : State) : s.now ≤ (gap s).now := gapWith_now 0 false s

/-- The outside levels after a gap are the ones the environment's move names (R41, R190). -/
@[simp] theorem gapWith_extIn (a : Nat) (m : Bool) (s : State) : (gapWith a m s).extIn = (nextMove s).pins := by
  simp [gapWith]

@[simp] theorem gap_extIn (s : State) : (gap s).extIn = (nextMove s).pins := gapWith_extIn 0 false s

/-- The clock after a gap: the move's ticks, or as many as the gap must last. -/
theorem gapWith_now_eq (a : Nat) (m : Bool) (s : State) :
    (gapWith a m s).now = s.now + max (nextMove s).ticks a := by simp [gapWith]

/-- The script loses one move in a gap. -/
@[simp] theorem gapWith_env (a : Nat) (m : Bool) (s : State) : (gapWith a m s).env = s.env.tail := by
  cases hs : s.env <;> simp [gapWith, dropMove, hs, tick, pinChange]

/-- What a gap does to the timer and the trace: nothing, or the expiry step, which needs the timer armed and its deadline
reached (R193). -/
theorem gapWith_cases (a : Nat) (m : Bool) (s : State) :
    ((gapWith a m s).timerArmed = s.timerArmed ∧ (gapWith a m s).timerExpired = s.timerExpired ∧
        (gapWith a m s).trace = s.trace) ∨
      (s.timerArmed = true ∧ s.timerFireAt ≤ (gapWith a m s).now ∧ (gapWith a m s).timerArmed = false ∧
        (gapWith a m s).timerExpired = true ∧ (gapWith a m s).trace = s.trace ++ [.expiry]) := by
  have hnow := gapWith_now_eq a m s
  rcases timerAgent_cases ((nextMove s).fires || m)
      (pinChange (nextMove s).pins (tick (max (nextMove s).ticks a) (dropMove s))) with h | ⟨h, h1, h2⟩
  · left; simp only [gapWith, h]; simp
  · right
    refine ⟨by simpa using h1, ?_, ?_⟩
    · rw [hnow]; simpa using h2
    · simp only [gapWith, h]; simp

/-! ### The delay -/

theorem delay_visible (t : Nat) (s : State) : visible (delay t s).trace = visible s.trace ++ [.delay t] := by
  simp [delay]

theorem delay_now (t : Nat) (s : State) : s.now + t ≤ (delay t s).now := by
  simpa [delay] using gapWith_now t false s

theorem delay_disarmed {s : State} (t : Nat) (h : s.timerArmed = false) :
    (delay t s).timerArmed = false ∧ (delay t s).timerExpired = s.timerExpired ∧
      (delay t s).trace = s.trace ++ [.delay t] := by
  obtain ⟨h1, h2, h3⟩ := gapWith_disarmed t false h
  exact ⟨by simpa [delay] using h1, by simpa [delay] using h2, by simp [delay, h3]⟩

/-! ### Register accesses -/

theorem regWrite_visible (r : WriteReq) (v : Word) (s : State) :
    visible (regWrite r v s).trace = visible s.trace ++ [.write (writeOffset s.cfg r) v] := by
  simp [regWrite]

theorem regWrite_now (r : WriteReq) (v : Word) (s : State) : s.now ≤ (regWrite r v s).now := by
  simpa [regWrite] using gap_now s

theorem regWrite_disarmed {s : State} (r : WriteReq) (v : Word) (h : s.timerArmed = false) :
    (regWrite r v s).timerArmed = false ∧ (regWrite r v s).timerExpired = s.timerExpired ∧
      (regWrite r v s).trace = s.trace ++ [.write (writeOffset s.cfg r) v] := by
  obtain ⟨h1, h2, h3⟩ := gap_disarmed h
  exact ⟨by simpa [regWrite] using h1, by simpa [regWrite] using h2, by simp [regWrite, h3]⟩

@[simp] theorem regWrite_gpset_latch (v : Word) (s : State) : (regWrite .gpset v s).latch = s.latch ||| v := by
  simp [regWrite, store]

@[simp] theorem regWrite_gpclr_latch (v : Word) (s : State) : (regWrite .gpclr v s).latch = s.latch &&& ~~~v := by
  simp [regWrite, store]

@[simp] theorem regWrite_gpfsel_latch (k : Fin 4) (v : Word) (s : State) : (regWrite (.gpfsel k) v s).latch = s.latch := by
  simp [regWrite, store]

@[simp] theorem regWrite_gpfsel_gpfsel (k : Fin 4) (v : Word) (s : State) :
    (regWrite (.gpfsel k) v s).gpfsel = s.gpfsel.set k.val v := by
  simp [regWrite, store]

@[simp] theorem regRead_fst_gpfsel (k : Fin 4) (s : State) : (regRead (.gpfsel k) s).1 = gpfselWord s k := by
  simp [regRead, readValue, gpfselWord]

@[simp] theorem regRead_fst_gplev (s : State) : (regRead .gplev s).1 = gplev (gap s) := rfl

@[simp] theorem regRead_snd (r : ReadReq) (s : State) : (regRead r s).2 = readNow r (gap s) := rfl

/-! ### The latch behind a pin write -/

theorem pinMask_getLsbD (p : Pin) (i : Nat) : (pinMask p).getLsbD i = decide (i = p.val) := by
  have h := p.isLt
  simp only [pinMask, BitVec.getLsbD_shiftLeft, BitVec.getLsbD_one]
  by_cases hi : i < 32
  · by_cases hp : i = p.val
    · subst hp; simp
    · simp [hp, hi]; omega
  · have : i ≠ p.val := by omega
    simp [this]; omega

@[simp] theorem pinMask_getElem (p : Pin) (i : Nat) (h : i < 32) : (pinMask p)[i] = decide (i = p.val) := by
  rw [← pinMask_getLsbD, BitVec.getLsbD_eq_getElem]

/-- The latches with one pin's latch at a level. -/
def latchWith (latch : Word) (p : Pin) : Level → Word
  | .high => latch ||| pinMask p
  | .low => latch &&& ~~~pinMask p

@[simp] theorem pinWrite_latch (p : Pin) (l : Level) (s : State) : (pinWrite p l s).latch = latchWith s.latch p l := by
  cases l <;> simp [pinWrite, latchWith]

theorem latchWith_getLsbD (latch : Word) (p : Pin) (l : Level) (i : Nat) (hi : i < 32) :
    (latchWith latch p l).getLsbD i = if i = p.val then levelBit l else latch.getLsbD i := by
  cases l <;> by_cases h : i = p.val <;> simp [latchWith, h, hi, levelBit]

/-- Bit by bit: the pin written has the level, every other latch is as it was (R70, R71, R135). -/
theorem pinWrite_latch_bit (p : Pin) (l : Level) (s : State) (q : Pin) :
    (pinWrite p l s).latch.getLsbD q.val = if q = p then levelBit l else s.latch.getLsbD q.val := by
  rw [pinWrite_latch, latchWith_getLsbD _ _ _ _ q.isLt]
  simp [Fin.ext_iff]

theorem pinWrite_visible (p : Pin) (l : Level) (s : State) :
    visible (pinWrite p l s).trace = visible s.trace ++ [pinEvent s.cfg p l] := by
  cases l <;> simp [pinWrite, regWrite_visible, pinEvent, writeOffset]

theorem pinWrite_now (p : Pin) (l : Level) (s : State) : s.now ≤ (pinWrite p l s).now := by
  cases l <;> simpa [pinWrite] using regWrite_now _ _ s

theorem pinWrite_disarmed {s : State} (p : Pin) (l : Level) (h : s.timerArmed = false) :
    (pinWrite p l s).timerArmed = false ∧ (pinWrite p l s).timerExpired = s.timerExpired ∧
      (pinWrite p l s).trace = s.trace ++ [pinEvent s.cfg p l] := by
  cases l <;> simpa [pinWrite, pinEvent, writeOffset] using regWrite_disarmed _ _ h

/-! ### GPLEV -/

theorem gplev_getLsbD (s : State) (p : Pin) : (gplev s).getLsbD p.val = pinLevel s p := by
  simp [gplev]

/-- The level of a pin in a word is its bit (R138). -/
theorem levelIn_eq (w : Word) (p : Pin) : levelIn w p = levelOf (w.getLsbD p.val) := by
  have key : (w &&& pinMask p ≠ 0) ↔ w.getLsbD p.val = true := by
    constructor
    · intro h
      by_contra hc
      apply h
      apply BitVec.eq_of_getLsbD_eq
      intro i hi
      by_cases hp : i = p.val
      · subst hp; simp_all
      · simp [hi, hp]
    · intro h hc
      have := congrArg (fun v => v.getLsbD p.val) hc
      rw [BitVec.getLsbD_eq_getElem p.isLt] at h
      simp [h] at this
  unfold levelIn levelOf
  by_cases h : w.getLsbD p.val = true
  · rw [if_pos (key.mpr h), if_pos h]
  · rw [if_neg (fun hc => h (key.mp hc)), if_neg h]

/-! ### Commands -/

/-- A command is performed exactly while the block runs (R36). -/
theorem perform_running {s : State} (checks : State → List (Bool × BlockFault)) (body : State → State)
    (h : s.status = .running) :
    perform checks body s = .next (afterChecks (checks (gap s)) body (gap s)) := by
  simp [perform, h]

/-- If a command answers a next state, the block was running and the state is that of the checks or the body. -/
theorem perform_next {s t : State} {checks : State → List (Bool × BlockFault)} {body : State → State}
    (h : perform checks body s = .next t) :
    s.status = .running ∧ t = afterChecks (checks (gap s)) body (gap s) := by
  unfold perform at h
  split at h
  · exact ⟨‹_›, by simpa using h.symm⟩
  · simp at h
  · simp at h

@[simp] theorem pinChecks_gap (pin : Nat) (s : State) : pinChecks pin (gap s) = pinChecks pin s := by
  simp [pinChecks]

@[simp] theorem lcdChecks_gap (s : State) : lcdChecks (gap s) = lcdChecks s := by simp [lcdChecks]

/-- The pin checks pass exactly for a valid pin on an acquired block (R243, R244). -/
theorem firstFault_pinChecks {pin : Nat} {s : State} (hp : pin < 32) (ha : s.acquired = true) :
    firstFault (pinChecks pin s) = none := by
  have : ¬ nPins ≤ pin := by unfold nPins; omega
  simp [pinChecks, firstFault, this, ha]

/-- The LCD checks pass exactly on an acquired block with the display configured (R150). -/
theorem firstFault_lcdChecks {s : State} (ha : s.acquired = true) (hm : s.lcdMode = .configured) :
    firstFault (lcdChecks s) = none := by
  simp [lcdChecks, firstFault, ha, hm]

theorem afterChecks_none {checks : List (Bool × BlockFault)} {body : State → State} {s : State}
    (h : firstFault checks = none) : afterChecks checks body s = body s := by
  simp [afterChecks, h]

theorem afterChecks_some {checks : List (Bool × BlockFault)} {body : State → State} {s : State} {f : BlockFault}
    (h : firstFault checks = some f) : afterChecks checks body s = faultEntry f s := by
  simp [afterChecks, h]

/-- A command's next state is fault entry or the body's. -/
theorem afterChecks_cases (checks : List (Bool × BlockFault)) (body : State → State) (s : State) :
    (∃ f, firstFault checks = some f ∧ afterChecks checks body s = faultEntry f s) ∨
      (firstFault checks = none ∧ afterChecks checks body s = body s) := by
  unfold afterChecks
  split
  · exact .inl ⟨_, ‹_›, rfl⟩
  · exact .inr ⟨‹_›, rfl⟩

@[simp] theorem pinOr0_val {pin : Nat} (h : pin < 32) : pinOr0 pin = ⟨pin, h⟩ := by
  simp [pinOr0, pinOf, h]

/-! ### Fetching -/

/-- What fetching can answer (R36, R284). -/
theorem fetch_word {s : State} {w : Word} (h : fetch s = .word w) :
    s.status = .running ∧ s.stream[s.cp]? = some w := by
  unfold fetch at h
  split at h
  · split at h
    · simp_all
    · simp at h
  · simp at h
  · simp at h

/-- A step that answers a next state performed a command word or entered `IllegalCommand`. -/
theorem step_next {s t : State} (h : step s = .next t) :
    ∃ w, fetch s = .word w ∧
      ((∃ i, decode w = .command i ∧ exec i s = .next t) ∨ (∃ r, decode w = .reserved r ∧ reservedWord s = .next t)) := by
  unfold step at h
  split at h
  · simp at h
  · refine ⟨_, ‹_›, ?_⟩
    split at h
    · exact .inl ⟨_, ‹_›, h⟩
    · exact .inr ⟨_, ‹_›, h⟩

theorem reservedWord_running {s : State} (h : s.status = .running) :
    reservedWord s = .next (faultEntry .illegalCommand (gap s)) := by
  simp [reservedWord, perform, h, afterChecks, firstFault]

/-- Placing a word makes it the one at `cp`. -/
theorem placeWord_getElem (w : Word) (cp : Nat) (stream : List Word) : (placeWord w cp stream)[cp]? = some w := by
  unfold placeWord
  rw [List.getElem?_append_right (by simp; omega)]
  have : cp - (stream.take cp ++ List.replicate (cp - stream.length) 0).length = 0 := by simp; omega
  rw [this]; rfl

end Sys2Proof.Machine
end

