-- ==== Sys2Proof/Laws/Lcd.lean ====
section
/-! SUPPORT. What a sequence of pin writes and delays does, said once (`Transmits`), and for each LCD micro-operation its event
list. -/

namespace Sys2Proof.Machine

@[simp] theorem latchAfter_nil (c : Cfg) (l : Word) : latchAfter c l [] = l := rfl

@[simp] theorem latchAfter_cons (c : Cfg) (l : Word) (e : Event) (es : List Event) :
    latchAfter c l (e :: es) = latchAfter c (latchStep c l e) es := rfl

theorem latchAfter_append (c : Cfg) (l : Word) (a b : List Event) :
    latchAfter c l (a ++ b) = latchAfter c (latchAfter c l a) b := by
  simp [latchAfter, List.foldl_append]

theorem busTrace_append (c : Cfg) (l : Word) (a b : List Event) :
    busTrace c l (a ++ b) = busTrace c l a ++ busTrace c (latchAfter c l a) b := by
  induction a generalizing l with
  | nil => rfl
  | cons e es ih =>
    simp only [List.cons_append, busTrace, latchAfter_cons, ih]
    split <;> rfl

@[simp] theorem delayTicks_nil : delayTicks [] = 0 := rfl

theorem delayTicks_append (a b : List Event) : delayTicks (a ++ b) = delayTicks a + delayTicks b := by
  induction a with
  | nil => simp
  | cons e es ih => cases e <;> simp [delayTicks, ih, Nat.add_assoc]

/-- From `s` to `t` the sequencer has made exactly the pin writes and delays `es` (some of the agents' steps between them): the
rest of the block is as it was, the latches are those the writes leave, and at least the asked ticks have passed. -/
structure Transmits (s t : State) (es : List Event) : Prop where
  same : blockPart { t with latch := 0, timerArmed := false, timerExpired := false } =
    blockPart { s with latch := 0, timerArmed := false, timerExpired := false }
  visible : visible t.trace = visible s.trace ++ es
  disarmed : s.timerArmed = false →
    t.timerArmed = false ∧ t.timerExpired = s.timerExpired ∧ t.trace = s.trace ++ es
  latch : s.cfg.gpsetOff ≠ s.cfg.gpclrOff → t.latch = latchAfter s.cfg s.latch es
  now : s.now + delayTicks es ≤ t.now

theorem Transmits.refl (s : State) : Transmits s s [] :=
  ⟨rfl, by simp, by simp, by simp, by simp⟩

theorem Transmits.cfg_eq {s t : State} {es : List Event} (h : Transmits s t es) : t.cfg = s.cfg := by
  have hs := h.same
  simp only [blockPart, State.mk.injEq] at hs
  simp_all

/-- Two transmissions one after the other. -/
theorem Transmits.then {s t u : State} {es fs : List Event} (h : Transmits s t es) (g : Transmits t u fs) :
    Transmits s u (es ++ fs) where
  same := g.same.trans h.same
  visible := by rw [g.visible, h.visible, List.append_assoc]
  disarmed hd := by
    obtain ⟨h1, h2, h3⟩ := h.disarmed hd
    obtain ⟨g1, g2, g3⟩ := g.disarmed h1
    exact ⟨g1, g2.trans h2, by rw [g3, h3, List.append_assoc]⟩
  latch hc := by
    rw [latchAfter_append, ← h.latch hc, ← h.cfg_eq]
    exact g.latch (by rwa [h.cfg_eq])
  now := by
    have h1 := h.now
    have g1 := g.now
    rw [delayTicks_append]; omega

theorem Transmits.of_eq {s t : State} {es fs : List Event} (h : Transmits s t es) (e : es = fs) : Transmits s t fs := e ▸ h

/-- The whole frame of a transmission between commands (timer disarmed): only the latches differ. -/
theorem Transmits.blockPart_eq {s t : State} {es : List Event} (h : Transmits s t es) (hd : s.timerArmed = false) :
    blockPart t = blockPart { s with latch := t.latch } := by
  obtain ⟨h1, h2, -⟩ := h.disarmed hd
  have hs := h.same
  simp only [blockPart, State.mk.injEq] at hs ⊢
  simp_all

theorem pinEvent_latch {c : Cfg} (hc : c.gpsetOff ≠ c.gpclrOff) (p : Pin) (l : Level) (latch : Word) :
    latchStep c latch (pinEvent c p l) = latchWith latch p l := by
  cases l <;> simp [pinEvent, latchStep, latchWith, hc.symm]

@[simp] theorem delayTicks_pinEvent (c : Cfg) (p : Pin) (l : Level) (es : List Event) :
    delayTicks (pinEvent c p l :: es) = delayTicks es := by
  cases l <;> rfl

/-- `PinWrite` (R135). -/
theorem transmits_pinWrite (p : Pin) (l : Level) (s : State) : Transmits s (pinWrite p l s) [pinEvent s.cfg p l] where
  same := by simp [blockPart]
  visible := pinWrite_visible p l s
  disarmed := pinWrite_disarmed p l
  latch hc := by simp [pinEvent_latch hc]
  now := by simpa using pinWrite_now p l s

/-- `Delay` (R200). -/
theorem transmits_delay (t : Nat) (s : State) : Transmits s (delay t s) [.delay t] where
  same := by simp [blockPart]
  visible := delay_visible t s
  disarmed := delay_disarmed t
  latch _ := by simp [latchStep]
  now := by simpa [delayTicks] using delay_now t s

/-- `set_rs` (R154). -/
theorem transmits_setRs (l : Level) (s : State) : Transmits s (setRs l s) [pinEvent s.cfg s.cfg.pinRs l] :=
  transmits_pinWrite _ l s

/-- `emit_nibble` (R151). -/
theorem transmits_emitNibble (n : Nibble) (s : State) : Transmits s (emitNibble n s) (nibbleEvents s.cfg n) := by
  have h0 := transmits_pinWrite s.cfg.pinD0 (levelOf (n.getLsbD 0)) s
  have h1 := transmits_pinWrite s.cfg.pinD1 (levelOf (n.getLsbD 1)) (pinWrite s.cfg.pinD0 (levelOf (n.getLsbD 0)) s)
  have h2 := transmits_pinWrite s.cfg.pinD2 (levelOf (n.getLsbD 2))
    (pinWrite s.cfg.pinD1 (levelOf (n.getLsbD 1)) (pinWrite s.cfg.pinD0 (levelOf (n.getLsbD 0)) s))
  have h3 := transmits_pinWrite s.cfg.pinD3 (levelOf (n.getLsbD 3))
    (pinWrite s.cfg.pinD2 (levelOf (n.getLsbD 2))
      (pinWrite s.cfg.pinD1 (levelOf (n.getLsbD 1)) (pinWrite s.cfg.pinD0 (levelOf (n.getLsbD 0)) s)))
  simp only [pinWrite_cfg] at h1 h2 h3
  have h := ((h0.then h1).then h2).then h3
  simpa [emitNibble, nibbleEvents] using h

theorem transmits_strobeTo (l : Level) (s : State) :
    Transmits s (strobeTo l s) [pinEvent s.cfg s.cfg.pinStrb l, .delay (50 * s.cfg.uStrobe)] := by
  have h := (transmits_pinWrite s.cfg.pinStrb l s).then (transmits_delay (tStrobe * s.cfg.uStrobe) _)
  simpa [strobeTo, tStrobe] using h

/-- `strobe` (R152). -/
theorem transmits_strobe (s : State) : Transmits s (strobe s) (strobeEvents s.cfg) := by
  have h := (transmits_strobeTo .high s).then (transmits_strobeTo .low (strobeTo .high s))
  simpa [strobe, strobeEvents] using h

/-- `send_byte` (R156). -/
theorem transmits_sendByte (l : Level) (b : Byte) (s : State) : Transmits s (sendByte l b s) (byteEvents s.cfg l b) := by
  have h1 := (transmits_setRs l s).then (transmits_emitNibble (highNibble b) _)
  have h2 := (h1.then (transmits_strobe _)).then (transmits_emitNibble (lowNibble b) _)
  have h3 := h2.then (transmits_strobe _)
  simpa [sendByte, byteEvents] using h3

/-- `put4cmd` (R157). -/
theorem transmits_put4cmd (n : Nibble) (s : State) : Transmits s (put4cmd n s) (put4cmdEvents s.cfg n) := by
  have h := ((transmits_setRs .low s).then (transmits_emitNibble n _)).then (transmits_strobe _)
  simpa [put4cmd, put4cmdEvents] using h

/-- `send_ctl` (R169). -/
theorem transmits_sendCtl (s : State) : Transmits s (sendCtl s) (byteEvents s.cfg .low (ctlByte s.ctl)) :=
  transmits_sendByte _ _ s

/-- The function-set half-byte and its settle delay (R160). -/
theorem transmits_functionSet8 (s : State) : Transmits s (functionSet8 s) (functionSetEvents s.cfg) := by
  have h := (transmits_put4cmd (highNibble (lcdFunc ||| lcdFuncDl)) s).then (transmits_delay (tSettle * s.cfg.uSettle) _)
  have e : highNibble (lcdFunc ||| lcdFuncDl) = 0x3 := by decide
  rw [e] at h
  simpa [functionSet8, functionSetEvents, tSettle, e] using h

/-- A transmission after a gap is a transmission. -/
theorem Transmits.gapped {s t : State} {es : List Event} (h : Transmits (gap s) t es) : Transmits s t es where
  same := h.same.trans (by simp [blockPart])
  visible := by rw [h.visible]; simp
  disarmed hd := by
    obtain ⟨g1, g2, g3⟩ := gap_disarmed hd
    obtain ⟨h1, h2, h3⟩ := h.disarmed g1
    exact ⟨h1, h2.trans g2, by rw [h3, g3]⟩
  latch hc := by simpa using h.latch (by simpa using hc)
  now := le_trans (by have := gap_now s; omega) h.now

/-! ### The LCD bus -/

theorem gpset_ne_gpclr {c : Cfg} (h : c.Valid) : c.gpsetOff ≠ c.gpclrOff := by
  have := h.offsets
  simp [Cfg.offsets, List.nodup_append] at this
  tauto

/-- One pin's latch set, bit by bit. -/
theorem latchWith_pin (l : Word) (p q : Pin) (v : Level) :
    (latchWith l p v).getLsbD q.val = if q = p then levelBit v else l.getLsbD q.val := by
  rw [latchWith_getLsbD _ _ _ _ q.isLt]
  simp [Fin.ext_iff]

/-- A write to a pin other than the strobe puts nothing on the bus (R153). -/
theorem busTrace_quiet {c : Cfg} (hc : c.gpsetOff ≠ c.gpclrOff) {p : Pin} (hp : c.pinStrb ≠ p) (v : Level) (l : Word)
    (es : List Event) : busTrace c l (pinEvent c p v :: es) = busTrace c (latchWith l p v) es := by
  simp only [busTrace, pinEvent_latch hc, strobeFalls, latchWith_pin, hp, if_false]
  simp

/-- A strobe puts exactly the lines on the bus, whatever the strobe line was before (R152, R153, R290). -/
theorem busTrace_strobe {c : Cfg} (hc : c.gpsetOff ≠ c.gpclrOff) (l : Word) :
    busTrace c l (strobeEvents c) = [linesOf c (latchWith l c.pinStrb .high)] := by
  have hd : ∀ l t, latchStep c l (.delay t) = l := fun _ _ => rfl
  simp only [strobeEvents, busTrace, pinEvent_latch hc, strobeFalls, latchWith_pin, hd]
  simp [levelBit]

/-- A gap before a command, while the timer is disarmed, leaves the block as it was. -/
theorem blockPart_gap {s : State} (h : s.timerArmed = false) : blockPart (gap s) = blockPart s := by
  obtain ⟨h1, h2, -⟩ := gap_disarmed h
  simp [blockPart, h1, h2, h]

end Sys2Proof.Machine
end

