-- ==== Sys2Proof/Laws/Parameter.lean ====
section
/-! SUPPORT. A state and its parameters (R7, R46): taking them apart, and what a step under parameters is. -/

namespace Sys2Proof.Machine

@[simp] theorem under_cfg (b : Block) (c : Cfg) (stream : List Word) : (b.under c stream).cfg = c := rfl

@[simp] theorem under_stream (b : Block) (c : Cfg) (stream : List Word) : (b.under c stream).stream = stream := rfl

@[simp] theorem under_toBlock (b : Block) (c : Cfg) (stream : List Word) : (b.under c stream).toBlock = b := rfl

@[simp] theorem toBlock_under (s : State) : s.toBlock.under s.cfg s.stream = s := rfl

/-- What a step under parameters can answer: what the machine answers, less the parameters. -/
theorem stepUnder_cases (c : Cfg) (stream : List Word) (b : Block) :
    (∃ t, step (b.under c stream) = .next t ∧ stepUnder c stream b = .next t.toBlock) ∨
      (∃ r, step (b.under c stream) = .fault r ∧ stepUnder c stream b = .fault r) ∨
      (∃ r, step (b.under c stream) = .refused r ∧ stepUnder c stream b = .refused r) := by
  unfold stepUnder
  cases step (b.under c stream) with
  | next t => exact .inl ⟨t, rfl, rfl⟩
  | fault r => exact .inr (.inl ⟨r, rfl, rfl⟩)
  | refused r => exact .inr (.inr ⟨r, rfl, rfl⟩)

/-- A step of the step relation is a step of the machine. -/
theorem StepUnder.step {c : Cfg} {stream : List Word} {a b : Block} (h : StepUnder c stream a b) :
    ∃ t, step (a.under c stream) = .next t ∧ t.toBlock = b := by
  unfold StepUnder at h
  obtain ⟨t, ht, e⟩ | ⟨r, -, e⟩ | ⟨r, -, e⟩ := stepUnder_cases c stream a
  · exact ⟨t, ht, by rw [e] at h; cases h; rfl⟩
  all_goals rw [e] at h; cases h

/-- The invariant reads the configuration and not the stream, so handing on words keeps it. -/
theorem Inv.under {b : Block} {c : Cfg} {stream : List Word} (stream' : List Word) (h : Inv (b.under c stream)) :
    Inv (b.under c stream') := ⟨h.cfg, h.cx, h.cy, h.timer, h.lcdMode, h.cause, h.released⟩

end Sys2Proof.Machine
end

