-- ==== Sys2Proof/Laws/PerInstr.lean ====
section
/-! SUPPORT. One lemma per command: bits 31..24 of its word are its opcode in the opcode map (R91, R99, R100). -/

namespace Sys2Proof.Laws.OpcodeField

open Sys2Proof

/-- The opcode column of 30_encoding section 4. -/
def opcode : Instr → Nat
  | .acquire => 0x01
  | .release => 0x02
  | .setMode _ _ => 0x10
  | .write _ _ => 0x11
  | .read _ => 0x12
  | .lcdInit => 0x20
  | .lcdCmd _ => 0x21
  | .putChar _ => 0x22
  | .position _ _ => 0x23
  | .lcdClear => 0x24
  | .lcdDisplay _ => 0x25
  | .lcdCursor _ => 0x26
  | .lcdBlink _ => 0x27
  | .waitInput => 0x30
  | .delay _ => 0x40

/-- The opcode field of a well-formed command's word is the opcode the map gives it. -/
def Statement (i : Instr) : Prop := i.wellFormed = true → bitField (encode i) 24 8 = opcode i

theorem acquire : Statement (.acquire) := fun _ => bitField_wordOf_opcode (by decide) (by decide)
theorem release : Statement (.release) := fun _ => bitField_wordOf_opcode (by decide) (by decide)
theorem setMode (pin : Nat) (dir : Direction) : Statement (.setMode pin dir) := by
  intro h
  simp only [Instr.wellFormed, decide_eq_true_eq] at h
  exact bitField_wordOf_opcode (by decide) (by cases dir <;> simp only [directionNat] <;> omega)
theorem write (pin : Nat) (level : Level) : Statement (.write pin level) := by
  intro h
  simp only [Instr.wellFormed, decide_eq_true_eq] at h
  exact bitField_wordOf_opcode (by decide) (by cases level <;> simp only [levelNat] <;> omega)
theorem read (pin : Nat) : Statement (.read pin) := by
  intro h
  simp only [Instr.wellFormed, decide_eq_true_eq] at h
  exact bitField_wordOf_opcode (by decide) (by omega)
theorem lcdInit : Statement (.lcdInit) := fun _ => bitField_wordOf_opcode (by decide) (by decide)
theorem lcdCmd (b : Byte) : Statement (.lcdCmd b) := fun _ => bitField_wordOf_opcode (by decide) (by have := b.isLt; omega)
theorem putChar (b : Byte) : Statement (.putChar b) := fun _ => bitField_wordOf_opcode (by decide) (by have := b.isLt; omega)
theorem position (x y : Nat) : Statement (.position x y) := by
  intro h
  simp only [Instr.wellFormed, Bool.and_eq_true, decide_eq_true_eq] at h
  exact bitField_wordOf_opcode (by decide) (by omega)
theorem lcdClear : Statement (.lcdClear) := fun _ => bitField_wordOf_opcode (by decide) (by decide)
theorem lcdDisplay (on : Bool) : Statement (.lcdDisplay on) := fun _ => bitField_wordOf_opcode (by decide) (by cases on <;> decide)
theorem lcdCursor (on : Bool) : Statement (.lcdCursor on) := fun _ => bitField_wordOf_opcode (by decide) (by cases on <;> decide)
theorem lcdBlink (on : Bool) : Statement (.lcdBlink on) := fun _ => bitField_wordOf_opcode (by decide) (by cases on <;> decide)
theorem waitInput : Statement (.waitInput) := fun _ => bitField_wordOf_opcode (by decide) (by decide)
theorem delay (n : Nat) : Statement (.delay n) := by
  intro h
  simp only [Instr.wellFormed, decide_eq_true_eq] at h
  exact bitField_wordOf_opcode (by decide) (by omega)

end Sys2Proof.Laws.OpcodeField
end

