-- ==== Sys2Proof/Laws/TimedInput.lean ====
section
/-! SUPPORT. What the polling loop of WAIT_INPUT can do, said once (`Polls`): one poll, the loop by induction on its polls;
and which events it leaves for a script of moves (`waitLoop_pollEvents`). -/

namespace Sys2Proof.Machine

/-- The debounce delay of a configuration, in ticks. -/
def debounceTicks (c : Cfg) : Nat := tDebounce * c.uDebounce

theorem presses_append (p : Level) (a b : List Level) :
    presses p (a ++ b) = presses p a + presses (a.getLastD p) b := by
  induction a generalizing p with
  | nil => simp [presses]
  | cons l ls ih =>
    simp only [List.cons_append, presses, ih]
    rw [List.getLastD_cons]
    omega

theorem polledLevels_append (c : Cfg) (p : Pin) (a b : List Event) :
    polledLevels c p (a ++ b) = polledLevels c p a ++ polledLevels c p b := by
  induction a with
  | nil => rfl
  | cons e es ih =>
    cases e <;> simp only [List.cons_append, polledLevels, ih]
    split <;> simp

theorem getLastD_append_levels (p : Level) (a b : List Level) : (a ++ b).getLastD p = b.getLastD (a.getLastD p) := by
  induction b generalizing a p with
  | nil => simp
  | cons l ls ih =>
    have := ih p (a ++ [l])
    simp only [List.append_assoc, List.singleton_append] at this
    rw [this, List.getLastD_cons]
    congr 1
    simp

/-- From `s` to `t` the loop has left the events `es`: polls, debounce delays, at most one expiry, and has kept `count` and
`prev` by them; the rest of the block is as it was. -/
structure Polls (s t : State) (es : List Event) : Prop where
  same : blockPart { t with prev := .low, count := 0, timerArmed := false, timerExpired := false } =
    blockPart { s with prev := .low, count := 0, timerArmed := false, timerExpired := false }
  trace : t.trace = s.trace ++ es
  kinds : ∀ e ∈ es, e = .expiry ∨ e = .delay (debounceTicks s.cfg) ∨
    ∃ w, e = .read s.cfg.gplevOff w ∧ ∀ p : Pin, field s p = selOutput → w.getLsbD p.val = s.latch.getLsbD p.val
  count : t.count = s.count + presses s.prev (polledLevels s.cfg s.cfg.pinButton es)
  prev : t.prev = (polledLevels s.cfg s.cfg.pinButton es).getLastD s.prev
  delays : es.count (.delay (debounceTicks s.cfg)) = presses s.prev (polledLevels s.cfg s.cfg.pinButton es)
  timer : (es.count .expiry = 0 ∧ t.timerArmed = s.timerArmed ∧ t.timerExpired = s.timerExpired) ∨
    (s.timerArmed = true ∧ es.count .expiry = 1 ∧ t.timerArmed = false ∧ t.timerExpired = true ∧ s.timerFireAt ≤ t.now)
  now : s.now ≤ t.now

theorem Polls.rest {s t : State} {es : List Event} (h : Polls s t es) :
    t.cfg = s.cfg ∧ t.latch = s.latch ∧ t.gpfsel = s.gpfsel ∧ t.timerFireAt = s.timerFireAt := by
  have hs := h.same
  simp only [blockPart, State.mk.injEq, Block.mk.injEq] at hs
  tauto

theorem Polls.refl (s : State) : Polls s s [] :=
  ⟨rfl, by simp, by simp, by simp [polledLevels, presses], by simp [polledLevels], by simp [polledLevels, presses],
    .inl ⟨by simp, rfl, rfl⟩, le_refl _⟩

/-- Two stretches of the loop one after the other. -/
theorem Polls.then {s t u : State} {es fs : List Event} (h : Polls s t es) (g : Polls t u fs) : Polls s u (es ++ fs) := by
  obtain ⟨hc, hl, hf, hfire⟩ := h.rest
  have gcount := g.count
  have gprev := g.prev
  have gdelays := g.delays
  have gkinds := g.kinds
  rw [hc] at gcount gprev gdelays gkinds
  refine ⟨g.same.trans h.same, by rw [g.trace, h.trace, List.append_assoc], ?_, ?_, ?_, ?_, ?_, le_trans h.now g.now⟩
  · intro e he
    rcases List.mem_append.mp he with he | he
    · exact h.kinds e he
    · rcases gkinds e he with h1 | h1 | ⟨w, hw, hb⟩
      · exact .inl h1
      · exact .inr (.inl h1)
      · refine .inr (.inr ⟨w, hw, fun p hp => ?_⟩)
        have : field t p = selOutput := by simpa [field, gpfselWord, hf] using hp
        rw [hb p this, hl]
  · rw [gcount, h.count, h.prev, polledLevels_append, presses_append]; omega
  · rw [gprev, h.prev, polledLevels_append, getLastD_append_levels]
  · rw [List.count_append, h.delays, gdelays, h.prev, polledLevels_append, presses_append]
  · have ht := h.timer
    have gt := g.timer
    have gn := g.now
    rw [List.count_append]
    rcases ht with ⟨a1, a2, a3⟩ | ⟨a1, a2, a3, a4, a5⟩ <;> rcases gt with ⟨b1, b2, b3⟩ | ⟨b1, b2, b3, b4, b5⟩
    · exact .inl ⟨by omega, b2.trans a2, b3.trans a3⟩
    · exact .inr ⟨by rw [← a2]; exact b1, by omega, b3, b4, by rw [← hfire]; exact b5⟩
    · exact .inr ⟨a1, by omega, b2.trans a3, b3.trans a4, le_trans a5 gn⟩
    · simp [a3] at b1

/-- A gap of the loop: nothing, or the expiry step. -/
theorem polls_gapWith (a : Nat) (m : Bool) (s : State) :
    ∃ es, Polls s (gapWith a m s) es ∧ polledLevels s.cfg s.cfg.pinButton es = [] ∧ es.count (.delay (debounceTicks s.cfg)) = 0 := by
  have hn : s.now ≤ (gapWith a m s).now := by have := gapWith_now a m s; omega
  rcases gapWith_cases a m s with ⟨h1, h2, h3⟩ | ⟨h0, hd, h1, h2, h3⟩
  · refine ⟨[], ⟨by simp [blockPart], by simp [h3], by simp, by simp [polledLevels, presses], by simp [polledLevels],
      by simp [polledLevels, presses], .inl ⟨by simp, h1, h2⟩, hn⟩, rfl, rfl⟩
  · refine ⟨[.expiry], ⟨by simp [blockPart], h3, by simp, by simp [polledLevels, presses], by simp [polledLevels],
      by simp [polledLevels, presses], .inr ⟨h0, by simp, h1, h2, hd⟩, hn⟩, rfl, by simp⟩

/-- One poll that found the flag clear, with what the loop does with its level (R195, R196). -/
theorem polls_pollOn (s : State) : ∃ es, Polls s (pollOn s) es := by
  have hlev : polledLevels s.cfg s.cfg.pinButton [.read s.cfg.gplevOff (gplev s)] =
      [levelIn (gplev s) s.cfg.pinButton] := by simp [polledLevels]
  have hw : ∀ p : Pin, field s p = selOutput → (gplev s).getLsbD p.val = s.latch.getLsbD p.val := by
    intro p hp; rw [gplev_getLsbD]; simp [pinLevel, hp]
  by_cases hp : levelIn (gplev s) s.cfg.pinButton = s.prev
  · refine ⟨[.read s.cfg.gplevOff (gplev s)], ⟨?_, ?_, ?_, ?_, ?_, ?_, .inl ⟨by simp, ?_, ?_⟩, ?_⟩⟩ <;>
      simp [pollOn, takeLevel, hp, hlev, presses, readOffset, readValue, blockPart]
    · exact hw
    · intro h1 h2; simp [h1] at h2
    · intro h1 h2; simp [h1] at h2
  · cases hl : levelIn (gplev s) s.cfg.pinButton with
    | low =>
      have hpr : s.prev = .high := by cases h : s.prev <;> simp_all
      rw [hl] at hlev
      refine ⟨[.read s.cfg.gplevOff (gplev s)], ⟨?_, ?_, ?_, ?_, ?_, ?_, .inl ⟨by simp, ?_, ?_⟩, ?_⟩⟩ <;>
        simp [pollOn, takeLevel, hl, hpr, hlev, presses, readOffset, readValue, blockPart]
      exact hw
    | high =>
      have hpr : s.prev = .low := by cases h : s.prev <;> simp_all
      rw [hl] at hlev
      obtain ⟨xs, hx, hx1, hx2⟩ := polls_gapWith (debounceTicks s.cfg) false
        (countPress (readNow .gplev s))
      simp only [countPress_cfg, readNow_cfg] at hx1 hx2
      have ht := hx.timer
      have hk := hx.kinds
      have hn := hx.now
      have htr := hx.trace
      simp only [countPress_cfg, countPress_timerArmed, countPress_timerExpired, countPress_timerFireAt, countPress_now,
        countPress_trace, countPress_latch, readNow_cfg, readNow_timerArmed, readNow_timerExpired, readNow_timerFireAt,
        readNow_now, readNow_trace, readNow_latch] at ht hk hn htr
      have hlev' : polledLevels s.cfg s.cfg.pinButton
          (.read s.cfg.gplevOff (gplev s) :: (xs ++ [.delay (debounceTicks s.cfg)])) = [.high] := by
        have e : (Event.read s.cfg.gplevOff (gplev s) :: (xs ++ [.delay (debounceTicks s.cfg)])) =
          [.read s.cfg.gplevOff (gplev s)] ++ xs ++ [.delay (debounceTicks s.cfg)] := by simp
        rw [e, polledLevels_append, polledLevels_append, hlev, hx1]; rfl
      have ep : pollOn s = setPrev .high (delay (debounceTicks s.cfg) (countPress (readNow .gplev s))) := by
        simp [pollOn, takeLevel, hl, hpr, debounceTicks]
      refine ⟨.read s.cfg.gplevOff (gplev s) :: (xs ++ [.delay (debounceTicks s.cfg)]), ⟨?_, ?_, ?_, ?_, ?_, ?_, ?_, ?_⟩⟩
      · simp [ep, blockPart]
      · simp [ep, delay, htr, readOffset, readValue]
      · intro e he
        simp only [List.mem_cons, List.mem_append, List.not_mem_nil, or_false] at he
        rcases he with rfl | he | rfl
        · exact .inr (.inr ⟨_, rfl, hw⟩)
        · rcases hk e he with h1 | h1 | ⟨w, h1, h2⟩
          · exact .inl h1
          · exact .inr (.inl h1)
          · exact .inr (.inr ⟨w, h1, h2⟩)
        · exact .inr (.inl rfl)
      · rw [hlev']; simp [ep, presses, hpr]
      · rw [hlev']; simp [ep]
      · rw [hlev']; simp [presses, hpr, hx2]
      · simpa [ep, delay] using ht
      · simpa [ep, delay] using hn

/-- The loop ends with the flag set and the timer disarmed, if it starts armed or already expired (R193, R199). -/
theorem polls_waitLoop (n : Nat) (s : State) (h : s.timerExpired = !s.timerArmed) :
    ∃ es, Polls s (waitLoop n s) es ∧ (waitLoop n s).timerArmed = false ∧ (waitLoop n s).timerExpired = true := by
  induction n generalizing s with
  | zero =>
    obtain ⟨es, he, -, -⟩ := polls_gapWith (s.timerFireAt - s.now) true s
    refine ⟨es, he, ?_⟩
    have hn := gapWith_now (s.timerFireAt - s.now) true s
    cases ha : s.timerArmed with
    | true =>
      have hfire : s.timerFireAt ≤ s.now + max (nextMove s).ticks (s.timerFireAt - s.now) := by omega
      simp [waitLoop, gapWith, timerAgent, expiryEnabled, ha, hfire]
    | false =>
      obtain ⟨h1, h2, -⟩ := gapWith_disarmed (s.timerFireAt - s.now) true ha
      exact ⟨h1, h2.trans (by simp [h, ha])⟩
  | succ n ih =>
    obtain ⟨es, he, -, -⟩ := polls_gapWith 0 false s
    have keep : ∀ {u : State} {fs : List Event}, Polls s u fs → u.timerExpired = !u.timerArmed := by
      intro u fs hu
      rcases hu.timer with ⟨-, h1, h2⟩ | ⟨-, -, h1, h2, -⟩
      · rw [h1, h2, h]
      · rw [h1, h2]; rfl
    by_cases hx : (gap s).timerExpired = true
    · refine ⟨es, by simp only [waitLoop, hx, if_true]; exact he, ?_⟩
      have hk := keep he
      rw [show gapWith 0 false s = gap s from rfl, hx] at hk
      simp only [waitLoop, hx, if_true, and_true]
      simpa using hk.symm
    · simp only [waitLoop, hx]
      obtain ⟨fs, hf⟩ := polls_pollOn (gap s)
      obtain ⟨gs, hg, h1, h2⟩ := ih (pollOn (gap s)) (keep (he.then hf))
      exact ⟨_, (he.then hf).then hg, h1, h2⟩

/-! ### The events of a wait, by the script of moves -/

/-- The level register depends on the modes, the latches and the outside levels only (R25). -/
theorem gplev_congr {s t : State} (hf : t.gpfsel = s.gpfsel) (hl : t.latch = s.latch) :
    gplev t = gplev { s with extIn := t.extIn } := by
  simp only [gplev]
  congr 1
  funext p
  simp [pinLevel, field, gpfselWord, hf, hl]

/-- Whether the expiry step is taken in a gap (R193). -/
def gapRings (a : Nat) (s : State) : Bool :=
  s.timerArmed && (nextMove s).fires && decide (s.timerFireAt ≤ s.now + max (nextMove s).ticks a)

/-- What a gap without forced expiry does to the timer and the trace. -/
theorem gapWith_rings (a : Nat) (s : State) :
    (gapWith a false s).timerExpired = (s.timerExpired || gapRings a s) ∧
      (gapWith a false s).timerArmed = (s.timerArmed && !gapRings a s) ∧
      (gapWith a false s).trace = s.trace ++ (if gapRings a s then [.expiry] else []) := by
  have e : (expiryEnabled (pinChange (nextMove s).pins (tick (max (nextMove s).ticks a) (dropMove s))) &&
      ((nextMove s).fires || false)) = gapRings a s := by
    simp [expiryEnabled, gapRings, Bool.and_left_comm, Bool.and_comm, Bool.and_assoc]
  unfold gapWith timerAgent
  rw [e]
  cases h : gapRings a s with
  | true =>
    have ha : s.timerArmed = true := by simp [gapRings] at h; exact h.1.1
    simp [expiryStep, emit]
  | false => simp

/-- As far as the script goes, the loop leaves the events `pollEvents` gives (R195, R196). -/
theorem waitLoop_pollEvents (s0 : State) (n : Nat) (s : State) (elapsed : Nat) (hc : s.cfg = s0.cfg)
    (hf : s.gpfsel = s0.gpfsel) (hl : s.latch = s0.latch) (hx : s.timerExpired = !s.timerArmed)
    (hd : s.timerFireAt + elapsed = s.now + s0.cfg.tDeadline * s0.cfg.uDeadline) (hn : s.env.length ≤ n) :
    ∃ es, (waitLoop n s).trace = s.trace ++ es ∧
      pollEvents s0 elapsed s.timerExpired s.prev false s.env <+: es := by
  induction n generalizing s elapsed with
  | zero =>
    obtain ⟨es, he, -⟩ := polls_waitLoop 0 s hx
    have : s.env = [] := List.length_eq_zero_iff.mp (by omega)
    exact ⟨es, he.trace, by simp [this, pollEvents]⟩
  | succ n ih =>
    cases henv : s.env with
    | nil =>
      obtain ⟨es, he, -⟩ := polls_waitLoop (n + 1) s hx
      exact ⟨es, he.trace, by simp [pollEvents]⟩
    | cons g rest =>
      have hmove : nextMove s = g := by simp [nextMove, henv]
      obtain ⟨r1, r2, r3⟩ := gapWith_rings 0 s
      have hr : gapRings 0 s = (!s.timerExpired && g.fires &&
          decide (s0.cfg.tDeadline * s0.cfg.uDeadline ≤ elapsed + g.ticks)) := by
        have : (s.timerFireAt ≤ s.now + g.ticks) ↔
            (s0.cfg.tDeadline * s0.cfg.uDeadline ≤ elapsed + g.ticks) := by omega
        simp [gapRings, hmove, hx, this]
      rw [hr] at r1 r2 r3
      change (gap s).timerExpired = _ at r1
      change (gap s).timerArmed = _ at r2
      change (gap s).trace = _ at r3
      have hnow : (gap s).now = s.now + g.ticks := by
        have := gapWith_now_eq 0 false s; rw [hmove, Nat.max_zero] at this; exact this
      have henv' : (gap s).env = rest := by have := gapWith_env 0 false s; rw [henv] at this; exact this
      have hext : (gap s).extIn = g.pins := by have := gapWith_extIn 0 false s; rwa [hmove] at this
      simp only [waitLoop, pollEvents]
      generalize hrings : (!s.timerExpired && g.fires &&
          decide (s0.cfg.tDeadline * s0.cfg.uDeadline ≤ elapsed + g.ticks)) = rings at r1 r2 r3
      simp only [Bool.false_eq_true, if_false, hrings]
      by_cases hend : (s.timerExpired || rings) = true
      · rw [if_pos (by rw [r1]; exact hend), if_pos hend]
        exact ⟨_, r3, by simp⟩
      · rw [if_neg (by rw [r1]; exact hend), if_neg hend]
        have hclear : s.timerExpired = false ∧ rings = false := by simpa using hend
        obtain ⟨hx0, hr0⟩ := hclear
        have harm : s.timerArmed = true := by rw [hx0] at hx; simpa using hx.symm
        simp only [hr0, hx0, harm, Bool.or_false, Bool.and_true, Bool.not_false, Bool.false_eq_true, if_false,
          List.append_nil, List.nil_append] at r1 r2 r3 ⊢
        have hw : gplev (gap s) = gplev { s0 with extIn := g.pins } := by
          rw [gplev_congr (s := s0) (by simpa using hf) (by simpa using hl), hext]
        have hoff : (gap s).cfg = s0.cfg := by simpa using hc
        have hprev : (gap s).prev = s.prev := by simp
        let u := readNow .gplev (gap s)
        have hu : u.trace = s.trace ++ [.read s0.cfg.gplevOff (gplev { s0 with extIn := g.pins })] := by
          simp [u, r3, readOffset, readValue, hc, hw]
        have hu' : u.cfg = s0.cfg ∧ u.gpfsel = s0.gpfsel ∧ u.latch = s0.latch ∧ u.timerArmed = true ∧
            u.timerExpired = false ∧ u.timerFireAt = s.timerFireAt ∧ u.now = s.now + g.ticks ∧ u.env = rest ∧
            u.prev = s.prev := by simp [u, hc, hf, hl, r1, r2, hnow, henv']
        have ep : pollOn (gap s) = takeLevel (levelIn (gplev { s0 with extIn := g.pins }) s0.cfg.pinButton) u := by
          unfold pollOn; rw [hw, hoff]
        rw [ep]
        clear_value u
        obtain ⟨uc, uf, ul, ua, ux, ufire, unow, uenv, uprev⟩ := hu'
        rw [← uprev]
        generalize levelIn (gplev { s0 with extIn := g.pins }) s0.cfg.pinButton = L
        have ud : u.timerFireAt + (elapsed + g.ticks) = u.now + s0.cfg.tDeadline * s0.cfg.uDeadline := by
          rw [ufire, unow]; omega
        have un : rest.length ≤ n := by rw [henv] at hn; simpa using hn
        by_cases hpress : L = .high ∧ u.prev = .low
        · obtain ⟨rfl, hp⟩ := hpress
          have et : takeLevel .high u = setPrev .high (delay (300 * s0.cfg.uDebounce) (countPress u)) := by
            simp [takeLevel, hp, tDebounce, uc]
          rw [et, if_pos ⟨rfl, hp⟩]
          obtain ⟨q1, q2, q3⟩ := gapWith_rings (300 * s0.cfg.uDebounce) (countPress u)
          let v := setPrev .high (delay (300 * s0.cfg.uDebounce) (countPress u))
          have hv : v.cfg = s0.cfg ∧ v.gpfsel = s0.gpfsel ∧ v.latch = s0.latch ∧ v.prev = .high ∧
              v.timerFireAt = s.timerFireAt ∧ v.env = rest.tail ∧
              v.timerExpired = gapRings (300 * s0.cfg.uDebounce) (countPress u) ∧
              v.timerArmed = !gapRings (300 * s0.cfg.uDebounce) (countPress u) ∧
              v.now = u.now + max (nextMove (countPress u)).ticks (300 * s0.cfg.uDebounce) ∧
              v.trace = u.trace ++ (if gapRings (300 * s0.cfg.uDebounce) (countPress u) then [.expiry] else []) ++
                [.delay (300 * s0.cfg.uDebounce)] := by
            refine ⟨?_, ?_, ?_, ?_, ?_, ?_, ?_, ?_, ?_, ?_⟩ <;>
              simp [v, delay, uc, uf, ul, ua, ux, ufire, uenv, q1, q2, q3, gapWith_now_eq]
          change ∃ es, (waitLoop n v).trace = _ ∧ _
          clear_value v
          obtain ⟨vc, vf, vl, vp, vfire, venv, vx, va, vnow, vtr⟩ := hv
          cases rest with
          | nil =>
            obtain ⟨fs, hfs, -⟩ := polls_waitLoop n v (by rw [vx, va, Bool.not_not])
            exact ⟨_, by rw [hfs.trace, vtr, hu, List.append_assoc, List.append_assoc, List.append_assoc],
              by simp [pollEvents]⟩
          | cons d rest =>
            have hm : nextMove (countPress u) = d := by simp [nextMove, countPress, uenv]
            rw [hm] at vnow
            have hring : gapRings (300 * s0.cfg.uDebounce) (countPress u) = (d.fires &&
                decide (s0.cfg.tDeadline * s0.cfg.uDeadline ≤
                  elapsed + g.ticks + max d.ticks (300 * s0.cfg.uDebounce))) := by
              have : (s.timerFireAt ≤ s.now + g.ticks + max d.ticks (300 * s0.cfg.uDebounce)) ↔
                  (s0.cfg.tDeadline * s0.cfg.uDeadline ≤
                    elapsed + g.ticks + max d.ticks (300 * s0.cfg.uDebounce)) := by omega
              simp [gapRings, hm, ua, ufire, unow, this]
            obtain ⟨fs, hfs, hpre⟩ := ih v (elapsed + g.ticks + max d.ticks (300 * s0.cfg.uDebounce)) vc vf vl
              (by rw [vx, va, Bool.not_not]) (by rw [vfire, vnow, unow]; omega)
              (by rw [venv]; simp at un ⊢; omega)
            rw [venv, vp, vx] at hpre
            rw [hring] at vtr hpre
            refine ⟨_, by rw [hfs, vtr, hu]; simp only [List.append_assoc]; rfl, ?_⟩
            simpa [pollEvents] using hpre
        · have et : (takeLevel L u).trace = u.trace ∧ (takeLevel L u).cfg = u.cfg ∧ (takeLevel L u).gpfsel = u.gpfsel ∧
              (takeLevel L u).latch = u.latch ∧ (takeLevel L u).timerArmed = u.timerArmed ∧
              (takeLevel L u).timerExpired = u.timerExpired ∧ (takeLevel L u).timerFireAt = u.timerFireAt ∧
              (takeLevel L u).now = u.now ∧ (takeLevel L u).env = u.env ∧ (takeLevel L u).prev = L := by
            unfold takeLevel
            split
            · next h => simp [h]
            · cases L with
              | low => simp
              | high => cases h : u.prev <;> simp_all
          obtain ⟨t1, t2, t3, t4, t5, t6, t7, t8, t9, t10⟩ := et
          obtain ⟨fs, hfs, hpre⟩ := ih (takeLevel L u) (elapsed + g.ticks) (by rw [t2, uc]) (by rw [t3, uf])
            (by rw [t4, ul]) (by rw [t5, t6, ua, ux]; rfl) (by rw [t7, t8]; exact ud) (by rw [t9, uenv]; exact un)
          rw [t9, t10, t6, uenv, ux] at hpre
          rw [if_neg hpress]
          exact ⟨_, by rw [hfs, t1, hu, List.append_assoc], by simpa using hpre⟩

/-! ### Unending environments -/

@[simp] theorem ticksOf_zero (m : Nat → EnvMove) : ticksOf m 0 = 0 := rfl

@[simp] theorem ticksOf_succ (m : Nat → EnvMove) (n : Nat) : ticksOf m (n + 1) = ticksOf m n + (m n).ticks := rfl

theorem ticksOf_mono (m : Nat → EnvMove) {a b : Nat} (h : a ≤ b) : ticksOf m a ≤ ticksOf m b := by
  induction b with
  | zero => simp [Nat.le_zero.mp h]
  | succ b ih =>
    rcases Nat.lt_or_ge a (b + 1) with h1 | h1
    · have := ih (by omega)
      simp only [ticksOf_succ]; omega
    · rw [show a = b + 1 by omega]

@[simp] theorem script_length (m : Nat → EnvMove) (n : Nat) : (script m n).length = n := by simp [script]

theorem script_succ (m : Nat → EnvMove) (n : Nat) : script m (n + 1) = script m n ++ [m n] := by
  simp [script, List.range_succ]

end Sys2Proof.Machine
end

