-- ==== Sys2Proof/Tests/Slice0.lean ====
section
/-! SUPPORT. The model's own tests. Expected results are the vectors of 95_test_vectors (named in each comment) or words written
out from the formats of 30_encoding. After them, for every statement with hypotheses, a witness that meets them. -/

namespace Sys2Proof.Tests

open Sys2Proof Sys2Proof.Machine

set_option maxRecDepth 1024

/-! ### Small states -/

/-- `n` gaps in which nothing happens and the outside world drives `pins`. -/
def quiet (n : Nat) (pins : Word) : List EnvMove := List.replicate n ⟨0, pins, false⟩

/-- Reset, with a quiet environment for a few gaps. -/
def start : State := { State.reset with env := quiet 8 0 }

/-- A mapped block. -/
def mapped : State := { start with acquired := true }

/-- A block whose display is configured, cursor at `(x, y)`. -/
def lcdAt (x y : Nat) : State := { mapped with lcdMode := .configured, cx := x, cy := y, ctl := 0b100, env := quiet 80 0 }

/-- Button (pin 19) HIGH on the outside. -/
def high : EnvMove := ⟨0, 0x00080000, false⟩

/-- Button LOW. -/
def low : EnvMove := ⟨0, 0, false⟩

/-- The deadline comes and the expiry step is taken, with the button at a level. -/
def fire (pins : Word) : EnvMove := ⟨5000000, pins, true⟩

/-- A mapped block at the start of a wait: two gaps before the loop, then the script. -/
def waiting (script : List EnvMove) : State := { mapped with env := low :: low :: script }

/-- The next state, if there is one. -/
def nextOf : Host.Outcome State Fault Refusal → Option State
  | .next s => some s
  | .fault _ => none
  | .refused _ => none

/-- A view of the next state of a command. -/
def after {α : Type} (i : Instr) (s : State) (f : State → α) : Option α := (nextOf (exec i s)).map f

/-- What a command has put on the LCD bus. -/
def bus (s t : State) : List (Level × Nibble) := busTrace t.cfg s.latch t.trace

/-! ### Well-formedness: an ill-formed term for each check -/

theorem test_wellFormed_setMode_pin : (Instr.setMode 256 .output).wellFormed = false := by decide
theorem test_wellFormed_write_pin : (Instr.write 256 .high).wellFormed = false := by decide
theorem test_wellFormed_read_pin : (Instr.read 256).wellFormed = false := by decide
theorem test_wellFormed_position_x : (Instr.position 256 0).wellFormed = false := by decide
theorem test_wellFormed_position_y : (Instr.position 0 256).wellFormed = false := by decide
theorem test_wellFormed_delay : (Instr.delay 16777216).wellFormed = false := by decide
theorem test_wellFormed_invalid_pin_is_encodable : (Instr.setMode 255 .output).wellFormed = true := by decide

/-! ### Decoding: the words of 95_test_vectors section 3, written out as opcode, unassigned bits and fields -/

theorem test_decode_acquire : decode 0b00000001000000000000000000000000 = .command .acquire := by decide
theorem test_decode_release : decode 0b00000010000000000000000000000000 = .command .release := by decide
theorem test_decode_setMode : decode 0b00010000000000000000000100001101 = .command (.setMode 13 .output) := by decide
theorem test_decode_write : decode 0b00010001000000000000000100000101 = .command (.write 5 .high) := by decide
theorem test_decode_write_low : decode 0b00010001000000000000000000000101 = .command (.write 5 .low) := by decide
theorem test_decode_read : decode 0b00010010000000000000000000010011 = .command (.read 19) := by decide
theorem test_decode_lcdInit : decode 0b00100000000000000000000000000000 = .command .lcdInit := by decide
theorem test_decode_lcdCmd : decode 0b00100001000000000000000000000110 = .command (.lcdCmd 0x06) := by decide
theorem test_decode_putChar : decode 0b00100010000000000000000001000001 = .command (.putChar 0x41) := by decide
theorem test_decode_position : decode 0b00100011000000000000000100000011 = .command (.position 3 1) := by decide
theorem test_decode_lcdClear : decode 0b00100100000000000000000000000000 = .command .lcdClear := by decide
theorem test_decode_lcdDisplay : decode 0b00100101000000000000000000000001 = .command (.lcdDisplay true) := by decide
theorem test_decode_lcdCursor : decode 0b00100110000000000000000000000000 = .command (.lcdCursor false) := by decide
theorem test_decode_lcdBlink : decode 0b00100111000000000000000000000001 = .command (.lcdBlink true) := by decide
theorem test_decode_waitInput : decode 0b00110000000000000000000000000000 = .command .waitInput := by decide
theorem test_decode_delay : decode 0b01000000000000000000001111101000 = .command (.delay 1000) := by decide
theorem test_decode_delay_largest : decode 0x40FFFFFF = .command (.delay 16777215) := by decide

/-- The reserved words of the table: a must-be-zero bit of each format, then unassigned opcodes. -/
theorem test_decode_reserved :
    ([0x01000001, 0x11000205, 0x12000113, 0x23010000, 0x25000002, 0x30000001, 0x00000000, 0x03000000, 0x13000000,
      0x28000000, 0x31000000, 0x41000000, 0x50000000, 0xFFFFFFFF].map (fun w => decodeTableWord 32 w)).all Option.isNone =
      true := by decide

theorem test_encode_position : encode (.position 3 1) = 0x23000103 := by decide
theorem test_encode_setMode : encode (.setMode 13 .output) = 0x1000010D := by decide

/-! ### Register I/O -/

/-- IO23, IO24, IO25. -/
theorem test_acquire : after .acquire start (fun t => (t.acquired, t.cp, t.trace)) = some (true, 1, []) := by decide
theorem test_acquire_faults :
    after .acquire { start with hwAvailable := false } (fun t => (t.faultCause, t.status, t.cp)) = some (1, .faulted, 0) ∧
    after .acquire mapped (fun t => (t.faultCause, t.acquired)) = some (19, false) := by decide

/-- IO26, IO27. -/
theorem test_release :
    after .release mapped (fun t => (t.acquired, t.status, t.cp)) = some (false, .haltedOk, 0) ∧
    after .release start (fun t => (t.status, exitStatus t)) = some (.haltedOk, some 0) := by decide

/-- IO2: every other bit of the word is kept. -/
theorem test_setMode_output :
    after (.setMode 13 .output) { mapped with gpfsel := #v[0, 0xFFFFFFFF, 0, 0, 0, 0] } (fun t => (t.gpfsel[1], t.trace)) =
      some (0xFFFFF3FF, [.read 4 0xFFFFFFFF, .write 4 0xFFFFF3FF]) := by decide

/-- IO3, and IO8: the last field used, word 3 shift 3. -/
theorem test_setMode_input :
    after (.setMode 19 .input) { mapped with gpfsel := #v[0, 0xFFFFFFFF, 0, 0, 0, 0] } (fun t => t.gpfsel[1]) =
      some 0xC7FFFFFF ∧
    after (.setMode 31 .output) mapped (fun t => (t.gpfsel[3], t.trace)) =
      some (0x00000008, [.read 12 0, .write 12 0x00000008]) := by decide

/-- IO11, IO12, IO13. -/
theorem test_write :
    after (.write 31 .high) mapped (fun t => (t.latch, t.trace)) = some (0x80000000, [.write 28 0x80000000]) ∧
    after (.write 5 .low) { mapped with latch := 0xFFFFFFFF } (fun t => (t.latch, t.trace)) =
      some (0xFFFFFFDF, [.write 40 0x00000020]) := by decide

/-- IO22, IO21: `InvalidPin` before `NotAcquired`. -/
theorem test_write_faults :
    after (.write 40 .high) start (fun t => (t.faultCause, t.trace)) = some (17, [.fault 17]) ∧
    after (.write 5 .high) start (fun t => (t.faultCause, t.trace)) = some (18, [.fault 18]) := by decide

/-- IO17 and IO19: an output pin reads its latch; only the pin's bit is tested. -/
theorem test_read :
    after (.read 13) { mapped with gpfsel := #v[0, 0x200, 0, 0, 0, 0], latch := 0x2000 } (fun t => t.resp) = some 1 ∧
    after (.read 19) { mapped with env := quiet 2 0xFFF7FFFF } (fun t => (t.resp, t.trace)) =
      some (0, [.read 52 0xFFF7FFFF]) := by decide +kernel

/-- IO16: an input pin reads the outside level, not the latch. -/
theorem test_read_input : after (.read 5) { mapped with latch := 0x20 } (fun t => t.resp) = some 0 := by decide +kernel

/-- R64 at other offsets than the deployment's: byte 101 of a word at 100 is its bits [15:8]; byte 0 stands in no word there. -/
theorem test_storedByte :
    storedByte { mapped with cfg := { Cfg.deployment with fselOff := #v[100, 4, 8, 12, 16, 20] },
                             gpfsel := #v[0x11223344, 0, 0, 0, 0, 0] } 101 = some 0x33 ∧
    storedByte { mapped with cfg := { Cfg.deployment with fselOff := #v[100, 4, 8, 12, 16, 20] } } 0 = none := by
  decide +kernel

/-! ### LCD -/

/-- L2: the full register trace of `send_byte(1, 0x41)`, and the latches after it. -/
theorem test_sendByte_trace :
    (sendByte .high 0x41 (lcdAt 0 0)).trace =
      [.write 28 0x02000000, .write 40 0x00800000, .write 40 0x00000400, .write 28 0x08000000, .write 40 0x00400000,
       .write 28 0x01000000, .delay 50, .write 40 0x01000000, .delay 50,
       .write 28 0x00800000, .write 40 0x00000400, .write 40 0x08000000, .write 40 0x00400000,
       .write 28 0x01000000, .delay 50, .write 40 0x01000000, .delay 50] ∧
    (sendByte .high 0x41 (lcdAt 0 0)).latch = 0x02800000 := by decide

/-- L1: the full register trace of `put4cmd(0x3)`. -/
theorem test_put4cmd_trace :
    (put4cmd 0x3 (lcdAt 0 0)).trace =
      [.write 40 0x02000000, .write 28 0x00800000, .write 28 0x00000400, .write 40 0x08000000, .write 40 0x00400000,
       .write 28 0x01000000, .delay 50, .write 40 0x01000000, .delay 50] := by decide

/-- L3: the bus pairs and the end state. -/
theorem test_lcdInit :
    after .lcdInit { mapped with env := quiet 200 0 }
      (fun t => ((bus mapped t).map (fun p => p.2.toNat), t.lcdMode, t.ctl, t.cx, t.cy)) =
      some ([3, 3, 3, 2, 2, 8, 0, 12, 0, 12, 0, 12, 0, 1, 0, 6, 1, 4], .configured, 0b100, 0, 0) := by decide +kernel

/-- L13, and the priority example of R247: `NotAcquired` before `UnsupportedConfiguration`. -/
theorem test_lcdInit_faults :
    after .lcdInit { mapped with cfg := { Cfg.deployment with lcdBits := 8 } } (fun t => t.trace) = some [.fault 2] ∧
    after .lcdInit { start with cfg := { Cfg.deployment with lcdBits := 8 } } (fun t => t.trace) = some [.fault 18] := by
  decide

/-- L19: the byte is sent, the cursor stays. -/
theorem test_lcdCmd :
    after (.lcdCmd 0x01) (lcdAt 5 0) (fun t => (bus (lcdAt 5 0) t, t.cx, t.cy)) = some ([(.low, 0x0), (.low, 0x1)], 5, 0) := by
  decide

/-- L6, L7: the two wraps. -/
theorem test_putChar_wraps :
    after (.putChar 0x42) (lcdAt 15 0) (fun t => (bus (lcdAt 15 0) t, t.cx, t.cy)) =
      some ([(.high, 0x4), (.high, 0x2), (.low, 0xC), (.low, 0x0)], 0, 1) ∧
    after (.putChar 0x43) (lcdAt 15 1) (fun t => (bus (lcdAt 15 1) t, t.cx, t.cy)) =
      some ([(.high, 0x4), (.high, 0x3), (.low, 0x8), (.low, 0x0)], 0, 0) := by decide +kernel

/-- L5, L12. -/
theorem test_putChar :
    after (.putChar 0x41) (lcdAt 0 0) (fun t => (bus (lcdAt 0 0) t, t.cx, t.cy)) =
      some ([(.high, 0x4), (.high, 0x1)], 1, 0) ∧
    after (.putChar 0x41) mapped (fun t => (t.trace, t.cp)) = some ([.fault 20], 0) := by decide

/-- L9, L10. -/
theorem test_position :
    after (.position 3 1) (lcdAt 7 1) (fun t => (bus (lcdAt 7 1) t, t.cx, t.cy)) = some ([(.low, 0xC), (.low, 0x3)], 3, 1) ∧
    after (.position 15 0) (lcdAt 7 1) (fun t => (bus (lcdAt 7 1) t, t.cx, t.cy)) =
      some ([(.low, 0x8), (.low, 0xF)], 15, 0) := by decide

/-- L11: outside the geometry nothing but `cp`. -/
theorem test_position_outside :
    after (.position 16 0) (lcdAt 7 1) (fun t => (t.trace, t.cx, t.cy, t.cp)) = some ([], 7, 1, 1) ∧
    after (.position 0 2) (lcdAt 7 1) (fun t => (t.trace, t.cx, t.cy, t.cp)) = some ([], 7, 1, 1) := by decide

/-- L14. -/
theorem test_lcdClear :
    after .lcdClear (lcdAt 7 1) (fun t => (bus (lcdAt 7 1) t, t.cx, t.cy)) = some ([(.low, 0x0), (.low, 0x1)], 0, 0) := by
  decide

/-- L17, L15, L16. -/
theorem test_lcdDisplay :
    after (.lcdDisplay false) { lcdAt 0 0 with ctl := 0b111 } (fun t => (bus (lcdAt 0 0) t, t.ctl)) =
      some ([(.low, 0x0), (.low, 0xB)], 0b011) := by decide
theorem test_lcdCursor :
    after (.lcdCursor true) (lcdAt 0 0) (fun t => (bus (lcdAt 0 0) t, t.ctl)) =
      some ([(.low, 0x0), (.low, 0xE)], 0b110) := by decide
theorem test_lcdBlink :
    after (.lcdBlink true) { lcdAt 0 0 with ctl := 0b110 } (fun t => (bus (lcdAt 0 0) t, t.ctl)) =
      some ([(.low, 0x0), (.low, 0xF)], 0b111) := by decide

/-! ### Timed input -/

/-- T2: one clean press, with the full trace of the vector. -/
theorem test_waitInput_one_press :
    after .waitInput (waiting [low, low, high, high, high, high, low, low, fire 0])
      (fun t => (t.resp, t.prev, t.timerArmed, t.timerExpired, t.trace)) =
      some (1, .low, false, true,
        [.read 52 0, .read 52 0, .read 52 0x80000, .delay 300, .read 52 0x80000, .read 52 0x80000, .read 52 0, .read 52 0,
         .expiry]) := by decide +kernel

/-- T4: the expiry inside the debounce delay, the press stays counted; T6: a press after the expiry is not seen. -/
theorem test_waitInput_deadline :
    after .waitInput (waiting [low, high, fire 0x80000, high]) (fun t => (t.resp, t.trace)) =
      some (1, [.read 52 0, .read 52 0x80000, .expiry, .delay 300]) ∧
    after .waitInput (waiting [low, low, fire 0x80000]) (fun t => (t.resp, t.trace)) =
      some (0, [.read 52 0, .read 52 0, .expiry]) := by decide +kernel

/-- DL2: legal without the mapping; DL1. -/
theorem test_delay :
    after (.delay 1000) start (fun t => (t.trace, t.now, t.cp)) = some ([.delay 1000], 1000, 1) ∧
    after (.delay 0) start (fun t => t.trace) = some [.delay 0] := by decide

/-! ### Fetch -/

/-- F4: a reserved word. -/
theorem test_step_reserved :
    (nextOf (step { mapped with stream := [0x50000000] })).map (fun t => (t.faultCause, t.status, t.cp, t.acquired)) =
      some (16, .faulted, 0, false) := by decide

/-- F8 and F7: an exhausted stream is idle, a halted block fetches nothing. -/
theorem test_step_stops : fetch start = .stop .idle ∧
    fetch { start with status := .haltedOk, stream := [0x1100010D] } = .stop .haltedOk := by decide

/-- The word placed for the host is the one the next step performs. -/
theorem test_withFetchWord :
    (nextOf (step (State.reset.withFetchWord 32 0x01000000))).map (fun t => (t.acquired, t.cp)) = some (true, 1) := by
  decide

/-! ### Pseudo-commands and the host -/

/-- PR1; PR4: 3 + 48 + 2 commands. -/
theorem test_print :
    (expandPrint Cfg.deployment [0x48, 0x69] 0).map encode = [0x23000000, 0x22000048, 0x22000069] ∧
    (expandPrint Cfg.deployment (List.replicate 18 0x41) 1).length = 53 := by decide

/-- H3 to H8, H12 (S2, S3, S13). -/
theorem test_score :
    score [1, 2, 3] [3, 2, 1] = (1, 2) ∧ score [1, 1, 2] [1, 2, 2] = (2, 0) ∧ score [1, 1, 2] [2, 1, 1] = (1, 2) ∧
    score [1, 2, 2] [2, 1, 1] = (0, 2) ∧ score [3, 3, 1] [3, 1, 3] = (1, 2) := by decide

/-- MAX_ATTEMPTS of the deployment (00_scope section 5); a secret has `seqlen` colours in `[1, colors]` (R221). -/
theorem test_newSession :
    (newSession Cfg.deployment [1, 2, 3]).map (·.maxAttempts) = some 10 ∧ newSession Cfg.deployment [1, 2] = none ∧
    newSession Cfg.deployment [1, 2, 4] = none ∧ newSession Cfg.deployment [0, 2, 3] = none := by decide

/-- A round of the session with secret `[1, 2, 3]`. -/
def aRound : Session := ⟨[1, 2, 3], 3, 3, 10, 0, [], (0, 0), .awaitingGuess⟩

/-- A host that shows nothing. -/
def silent : Feedback := ⟨fun _ => [], fun _ => [], fun _ => []⟩

/-- A view of the play after one attempt at a digit, the environment of the wait given. -/
def afterAttempt {α : Type} (script : List EnvMove) (f : Play → α) : Option α :=
  match attempt silent ⟨waiting script, aRound⟩ with
  | .next p => some (f p)
  | .fault _ => none
  | .refused _ => none

/-- Program E, one attempt: a count of 1 is a digit; a count of 0 is refused and the digit is still awaited. -/
theorem test_attempt :
    afterAttempt [low, low, high, high, low, low, fire 0] (fun p => (p.block.resp, p.session.guess, p.block.cp)) =
      some (1, [1], 1) ∧
    afterAttempt [low, low, fire 0] (fun p => (p.block.resp, p.session.guess, p.session.phase, p.block.cp)) =
      some (0, [], .awaitingGuess, 1) := by decide +kernel

/-- H9, H11, H12. -/
theorem test_decodeSecret :
    decodeSecret 3 3 312 = .ok [3, 1, 2] ∧ decodeSecret 3 3 45 = .malformedSecretLength ∧
    decodeSecret 3 3 1234 = .malformedSecretLength ∧ decodeSecret 3 3 104 = .invalidDigit := by decide

/-! ### Witnesses: for each statement with hypotheses, states and operands that meet them -/

theorem deployment_valid : Cfg.deployment.Valid := by constructor <;> decide

theorem witness_DecodeOfEncode : (Instr.setMode 255 .output).wellFormed = true := by decide

theorem witness_EncodeOfDecode : decode 0x10000113 = .command (.setMode 19 .output) := by decide

theorem witness_DecodeFollowsOpcodeMap :
    ((0x40000000, 0xFF000000) ∈ opcodeRows ∧ matchesRow 0x40000005 (0x40000000, 0xFF000000) = true) ∧
      (∀ r ∈ opcodeRows, matchesRow 0x24000001 r = false) :=
  ⟨by decide, fun r hr => by
    have h : opcodeRows.all (fun r => !matchesRow 0x24000001 r) = true := by decide
    simpa using List.all_eq_true.mp h r hr⟩

/-- A block about to perform ACQUIRE. -/
def armedForFetch : State := { start with stream := [0x01000000] }

theorem witness_StepRunsTheDecodedCommand :
    armedForFetch.status = .running ∧ armedForFetch.stream[armedForFetch.cp]? = some 0x01000000 ∧
      decode 0x01000000 = .command .acquire := by decide

theorem witness_ReservedWordFaults :
    ∃ s : State, s.status = .running ∧ s.timerArmed = false ∧ s.stream[s.cp]? = some 0 ∧
      decode 0 = .reserved (.unassignedOpcode 0) :=
  ⟨{ start with stream := [0] }, by decide⟩

theorem witness_EndedBlockTakesNoStep :
    (∃ s : State, s.status = .haltedOk) ∧ (∃ s : State, s.status = .faulted) ∧
      (start.status = .running ∧ start.stream[start.cp]? = none) :=
  ⟨⟨{ start with status := .haltedOk }, rfl⟩, ⟨{ start with status := .faulted }, rfl⟩, by decide⟩

theorem reset_inv : Inv State.reset where
  cfg := deployment_valid
  cx := by decide
  cy := by decide
  timer := rfl
  lcdMode := .inl rfl
  cause := by decide
  released := by decide

theorem witness_CleanResetHasInv : CleanReset State.reset ∧ State.reset.cfg.Valid :=
  ⟨by constructor <;> decide, deployment_valid⟩

theorem witness_StepKeepsInv :
    ∃ s t, Inv s ∧ step s = .next t :=
  ⟨{ State.reset with stream := [0x01000000] }, _,
    ⟨deployment_valid, by decide, by decide, rfl, .inl rfl, by decide, by decide⟩, rfl⟩

theorem witness_FaultsArePrecise :
    ∃ s t, s.timerArmed = false ∧ step s = .next t ∧ t.status = .faulted :=
  ⟨{ start with stream := [0] }, _, rfl, rfl, rfl⟩

theorem witness_OnlyTheListedFaults :
    (∃ t, exec (.write 32 .high) start = .next t ∧ t.status = .faulted) ∧ (∃ t, reservedWord start = .next t) ∧
      20 ∈ mayRaise (.lcdBlink true) :=
  ⟨⟨_, rfl, rfl⟩, ⟨_, rfl⟩, by decide⟩

theorem witness_CommandPointerAdvances :
    (∃ t, exec (.delay 1) start = .next t ∧ t.status = .running) ∧
    (∃ t, exec .release start = .next t ∧ t.status ≠ .running) :=
  ⟨⟨_, rfl, rfl⟩, ⟨_, rfl, by decide⟩⟩

theorem witness_StreamAndConfigurationNeverChange : ∃ t, step armedForFetch = .next t := ⟨_, rfl⟩

theorem witness_RegisterBlockFrame :
    (∃ t, exec (.write 31 .high) mapped = .next t) ∧ writesModes (.write 31 .high) = false ∧
      (30 : Pin).val ∉ mayChangeLatch mapped.cfg (.write 31 .high) :=
  ⟨⟨_, rfl⟩, by decide, by decide⟩

theorem witness_RegisterWriters :
    (∃ t, exec (.delay 1) start = .next t) ∧ respWriter (.delay 1) = false ∧ cursorWriter (.delay 1) = false ∧
      ctlWriter (.delay 1) = false :=
  ⟨⟨_, rfl⟩, rfl, rfl, rfl⟩

theorem witness_GapCoversEveryAgentRun : 2 ≤ [AgentStep.tick, .pins 7, .tick, .expiry].count .tick := by decide

theorem witness_FlagDiscipline : ∃ t, start.timerArmed = false ∧ exec (.delay 1) start = .next t := ⟨_, rfl, rfl⟩

/-- Two blocks that differ in what the environment does. -/
theorem witness_EnvironmentIsInvisible :
    ∃ s r t u : State, readsPins (.delay 1) = false ∧ s.cfg.Valid ∧ s.timerArmed = false ∧ blockPart r = blockPart s ∧
      exec (.delay 1) s = .next t ∧ exec (.delay 1) r = .next u ∧ r.extIn ≠ s.extIn :=
  ⟨start, { start with extIn := 1 }, _, _, rfl, deployment_valid, rfl, rfl, rfl, rfl, by decide⟩

theorem witness_MinimumDurations : ∃ t, exec (.delay 5) start = .next t ∧ t.status ≠ .faulted :=
  ⟨_, rfl, by decide⟩

theorem witness_AcquireEffect :
    start.status = .running ∧ start.timerArmed = false ∧ start.acquired = false ∧ start.hwAvailable = true ∧
      mapped.status = .running ∧ mapped.timerArmed = false ∧ mapped.acquired = true ∧
      (∃ s : State, s.status = .running ∧ s.timerArmed = false ∧ s.acquired = false ∧ s.hwAvailable = false) :=
  ⟨by decide, by decide, by decide, by decide, by decide, by decide, by decide,
    ⟨{ start with hwAvailable := false }, by decide⟩⟩

theorem witness_ReleaseEffect : mapped.status = .running ∧ mapped.timerArmed = false := by decide

/-- The clauses of the pin commands at their boundary: 32 is the first invalid pin, 31 the last valid one, word 3. -/
theorem witness_SetModeEffect :
    mapped.status = .running ∧ mapped.timerArmed = false ∧ mapped.acquired = true ∧ start.acquired = false ∧
      (32 ≤ 32) ∧ (31 < 32) ∧ (3 : Fin 6).val = 31 / 10 := by decide

theorem witness_SetModePreservesNeighbours :
    ∃ t, mapped.acquired = true ∧ exec (.setMode (31 : Pin).val .output) mapped = .next t ∧ (30 : Pin) ≠ 31 :=
  ⟨_, rfl, rfl, by decide⟩

theorem witness_SetModesCommute :
    ∃ t u, (30 : Pin) ≠ 31 ∧ mapped.acquired = true ∧
      execAll [.setMode (30 : Pin).val .output, .setMode (31 : Pin).val .input] mapped = .next t ∧
      execAll [.setMode (31 : Pin).val .input, .setMode (30 : Pin).val .output] mapped = .next u :=
  ⟨_, _, by decide, rfl, rfl, rfl⟩

theorem witness_WriteEffect :
    mapped.status = .running ∧ mapped.timerArmed = false ∧ mapped.acquired = true ∧ start.status = .running ∧
      start.timerArmed = false ∧ start.acquired = false ∧ 32 ≤ 32 ∧ 31 < 32 := by decide

theorem witness_WriteSetsOneLatch :
    ∃ t, mapped.acquired = true ∧ exec (.write (31 : Pin).val .high) mapped = .next t ∧ (0 : Pin) ≠ 31 :=
  ⟨_, rfl, rfl, by decide⟩

theorem witness_ReadEffect :
    mapped.status = .running ∧ mapped.timerArmed = false ∧ mapped.acquired = true ∧ start.acquired = false ∧
      32 ≤ 32 ∧ 31 < 32 := by decide

/-- Pin 31 an output. -/
def outputPin31 : State := { mapped with gpfsel := #v[0, 0, 0, 8, 0, 0] }

theorem witness_LevelRegisterView :
    field outputPin31 31 = 0b001#3 ∧ field outputPin31 30 ≠ 0b001#3 ∧ outputPin31.cfg.Valid :=
  ⟨by decide, by decide, deployment_valid⟩

theorem witness_ReadAfterWriteOfOutputPin :
    outputPin31.status = .running ∧ outputPin31.acquired = true ∧ field outputPin31 31 = 0b001#3 := by decide

theorem witness_DeviceWriteRules :
    mapped.cfg.Valid ∧ mapped.timerArmed = false ∧
      (∃ t, memWrite 28 5 mapped = some t) ∧ (∃ t, memWrite 40 5 mapped = some t) ∧
      (∃ t, memWrite 12 5 mapped = some t) ∧ (28 = mapped.cfg.gpsetOff) ∧ (40 = mapped.cfg.gpclrOff) ∧
      12 = mapped.cfg.fselOff[(3 : Fin 6)] :=
  ⟨deployment_valid, rfl, ⟨_, rfl⟩, ⟨_, rfl⟩, ⟨_, rfl⟩, by decide, by decide, by decide⟩

/-- `LcdCmdEffect`, `PutCharEffect`, `PositionEffect`, `LcdClearEffect`, `DisplayControlEffect`: a configured block (for the
effect), a mapped one that is not, and one that is not mapped; the last
column (the wrap), the column before it, and the first coordinates outside and the last inside. -/
theorem witness_lcd_statements :
    (lcdAt 15 1).status = .running ∧ (lcdAt 15 1).timerArmed = false ∧ (lcdAt 15 1).cfg.Valid ∧
      (lcdAt 15 1).acquired = true ∧ (lcdAt 15 1).lcdMode = .configured ∧
      (lcdAt 15 1).cx + 1 = (lcdAt 15 1).cfg.lcdCols ∧ (lcdAt 14 1).cx + 1 ≠ (lcdAt 14 1).cfg.lcdCols ∧
      (lcdAt 15 1).cfg.lcdCols ≤ 16 ∧ (lcdAt 15 1).cfg.lcdRows ≤ 2 ∧ 15 < (lcdAt 15 1).cfg.lcdCols ∧
      1 < (lcdAt 15 1).cfg.lcdRows ∧ mapped.acquired = true ∧ mapped.lcdMode ≠ .configured ∧ start.acquired = false :=
  ⟨rfl, rfl, deployment_valid, rfl, rfl, rfl, by decide, by decide, by decide, by decide, by decide, rfl, by decide, rfl⟩

/-- A display of one row (vector L4). -/
def oneRow : State := { mapped with cfg := { Cfg.deployment with lcdRows := 1 } }

theorem witness_LcdInitEffect :
    (mapped.status = .running ∧ mapped.timerArmed = false ∧ mapped.cfg.gpsetOff ≠ mapped.cfg.gpclrOff ∧
      mapped.acquired = true ∧ mapped.cfg.lcdBits = 4 ∧ start.acquired = false ∧
      ({ mapped with cfg := { Cfg.deployment with lcdBits := 8 } } : State).cfg.lcdBits ≠ 4) ∧
    1 < mapped.cfg.lcdRows ∧ mapped.cfg.Valid ∧ ¬ 1 < oneRow.cfg.lcdRows ∧ oneRow.cfg.lcdBits = 4 ∧ oneRow.cfg.Valid :=
  ⟨by decide, by decide, deployment_valid, by decide, by decide, by constructor <;> decide⟩

theorem witness_SendByte : (lcdAt 0 0).cfg.Valid := deployment_valid

theorem witness_Put4cmd : mapped.cfg.Valid ∧ 1 < mapped.cfg.lcdRows := ⟨deployment_valid, by decide⟩

theorem witness_CursorWrap :
    (lcdAt 0 0).status = .running ∧ (lcdAt 0 0).acquired = true ∧ (lcdAt 0 0).lcdMode = .configured ∧
      (lcdAt 0 0).cfg.Valid ∧ (lcdAt 0 0).cx = 0 ∧ (lcdAt 0 0).cy = 0 :=
  ⟨rfl, rfl, rfl, deployment_valid, rfl, rfl⟩

/-- `PrintExpansion` and `PrintCursor`: a message that just fits and one that just does not, on the last row. -/
theorem witness_Print :
    (lcdAt 3 0).status = .running ∧ (lcdAt 3 0).acquired = true ∧ (lcdAt 3 0).lcdMode = .configured ∧
      (lcdAt 3 0).cfg.Valid ∧ 1 < (lcdAt 3 0).cfg.lcdRows ∧
      (List.replicate 16 (0x41 : Byte)).length ≤ Cfg.deployment.lcdCols ∧
      Cfg.deployment.lcdCols < (List.replicate 17 (0x41 : Byte)).length ∧
      (List.replicate 15 (0x41 : Byte)).length < Cfg.deployment.lcdCols :=
  ⟨rfl, rfl, rfl, deployment_valid, by decide, by decide, by decide, by decide⟩

theorem witness_TimerSteps :
    (∃ s : State, s.timerArmed = true ∧ s.timerFireAt ≤ s.now) ∧ (∃ s : State, s.now < s.timerFireAt) ∧
      start.timerArmed = false :=
  ⟨⟨{ start with timerArmed := true, timerFireAt := 5, now := 5 }, by decide⟩,
    ⟨{ start with timerArmed := true, timerFireAt := 5, now := 4 }, by decide⟩, rfl⟩

/-- A wait of one clean press. -/
def onePress : State := waiting [low, high, high, low, fire 0]

/-- Its script makes the wait poll, and a poll of the input button reads what the move drives. -/
theorem witness_WaitInputEffect :
    onePress.status = .running ∧ onePress.timerArmed = false ∧ onePress.acquired = true ∧ start.acquired = false ∧
      pollEvents onePress 0 false .low false (onePress.env.drop 2) =
        [.read 52 0, .read 52 0x80000, .delay 300, .read 52 0, .expiry] := by
  decide +kernel

theorem witness_NoPollAfterExpiry :
    ∃ t, onePress.timerArmed = false ∧ onePress.acquired = true ∧ exec .waitInput onePress = .next t :=
  ⟨_, rfl, rfl, rfl⟩

/-- The two clauses of `CleanPressCounts`: a wait whose polls read LOW, HIGH, LOW and one whose polls read LOW only. -/
theorem witness_CleanPressCounts :
    after .waitInput onePress (fun t => polledLevels t.cfg t.cfg.pinButton t.trace) =
        some (List.replicate 1 .low ++ List.replicate (0 + 1) .high ++ List.replicate 1 .low) ∧
      after .waitInput (waiting [low, low, fire 0]) (fun t => polledLevels t.cfg t.cfg.pinButton t.trace) =
        some [.low, .low] := by decide +kernel

/-- The button pin left in output mode, with a latch word. -/
def outputButton (latch : Word) : State := { onePress with gpfsel := #v[0, 0x08000000, 0, 0, 0, 0], latch := latch }

theorem witness_ButtonAsOutputPin :
    ((outputButton 0x00080000).timerArmed = false ∧ (outputButton 0x00080000).acquired = true ∧
      (∃ t, exec .waitInput (outputButton 0x00080000) = .next t) ∧
      field (outputButton 0x00080000) (outputButton 0x00080000).cfg.pinButton = 0b001#3 ∧
      (outputButton 0x00080000).latch.getLsbD (outputButton 0x00080000).cfg.pinButton.val = true) ∧
    ((outputButton 0).timerArmed = false ∧ (outputButton 0).acquired = true ∧
      (∃ t, exec .waitInput (outputButton 0) = .next t) ∧
      field (outputButton 0) (outputButton 0).cfg.pinButton = 0b001#3 ∧
      (outputButton 0).latch.getLsbD (outputButton 0).cfg.pinButton.val = false) :=
  ⟨⟨rfl, rfl, ⟨_, rfl⟩, by decide, by decide⟩, ⟨rfl, rfl, ⟨_, rfl⟩, by decide, by decide⟩⟩

theorem witness_DelayEffect : start.status = .running ∧ start.timerArmed = false := by decide

theorem witness_ScoreBounds : [1, 1, 2].length = [2, 1, 1].length := rfl

theorem witness_ScoreIsColourOverlap :
    [1, 1, 2].length = [2, 1, 1].length ∧ (∀ v ∈ [1, 1, 2], v ≤ 3) ∧ (∀ v ∈ [2, 1, 1], v ≤ 3) := by decide

/-- Each clause at a boundary; 0 is written with one digit (log 13). -/
theorem witness_SecretDecoding :
    1 ≤ 1 ∧ 0 < 10 ^ 1 ∧ decodeSecret 1 3 0 = .invalidDigit ∧ 10 ^ 3 ≤ 1000 ∧ 99 < 10 ^ (3 - 1) ∧ 100 < 10 ^ 3 ∧ 10 ^ (3 - 1) ≤ 100 ∧ decodeSecret 3 3 312 = .ok [3, 1, 2] := by decide

/-- The three clauses of `RoundCompletion`: a win on the last attempt, a loss on it, a round before it. -/
theorem witness_RoundCompletion :
    (∃ g : Session, g.phase = .roundComplete ∧ g.result.1 = g.secret.length) ∧
      (∃ g : Session, g.phase = .roundComplete ∧ g.result.1 ≠ g.secret.length ∧ g.maxAttempts ≤ g.attempts + 1) ∧
      (∃ g : Session, g.phase = .roundComplete ∧ g.result.1 ≠ g.secret.length ∧ g.attempts + 1 < g.maxAttempts) :=
  ⟨⟨{ aRound with attempts := 9, result := (3, 0), phase := .roundComplete }, by decide⟩,
    ⟨{ aRound with attempts := 9, phase := .roundComplete }, by decide⟩,
    ⟨{ aRound with attempts := 8, phase := .roundComplete }, by decide⟩⟩

theorem witness_StoredBytesAreLittleEndian : mapped.cfg.Valid ∧ mapped.acquired = true ∧ 3 < 4 :=
  ⟨deployment_valid, rfl, by decide⟩

/-- An environment in which a tick passes in every gap and the timer agent is always willing. -/
def clockwork : Nat → EnvMove := fun _ => ⟨1, 0, true⟩

theorem ticksOf_clockwork (n : Nat) : ticksOf clockwork n = n := by
  induction n with
  | zero => rfl
  | succ n ih => simp [ticksOf, ih, clockwork]

theorem witness_WaitEndsUnderFairness :
    mapped.status = .running ∧ mapped.timerArmed = false ∧ mapped.acquired = true ∧ TimeAdvances clockwork ∧
      TimerFair clockwork :=
  ⟨rfl, rfl, rfl, fun t => ⟨t, by rw [ticksOf_clockwork]⟩, fun n => ⟨n, le_refl n, rfl⟩⟩

/-- A run: one ACQUIRE, then the host hands on nothing more. -/
def oneCommand : Nat → Block
  | 0 => armedForFetch.toBlock
  | _ + 1 => ((nextOf (step armedForFetch)).getD armedForFetch).toBlock

theorem witness_RunsKeepInv :
    Cfg.deployment.Valid ∧ Inv ((oneCommand 0).under Cfg.deployment armedForFetch.stream) ∧
      HostWellBehaved Cfg.deployment (fun _ => armedForFetch.stream) oneCommand :=
  ⟨deployment_valid, ⟨deployment_valid, by decide, by decide, rfl, .inl rfl, by decide, by decide⟩, fun n =>
    match n with
    | 0 => .inl ⟨rfl, rfl⟩
    | _ + 1 => .inr ⟨rfl, List.prefix_refl _⟩⟩

theorem witness_BootSequenceCompletes : CleanReset State.reset ∧ HwAvailable State.reset ∧ State.reset.cfg.Valid :=
  ⟨witness_CleanResetHasInv.1, rfl, deployment_valid⟩

theorem witness_LcdLinesAreTheLatches : LcdPinsOutput { mapped with gpfsel := #v[0, 1, 0x00209240, 0, 0, 0] } := by
  have h : ((Cfg.deployment.pins.take 6).all
      (fun p => field { mapped with gpfsel := #v[0, 1, 0x00209240, 0, 0, 0] } p == selOutput)) = true := by decide
  intro p hp
  simpa using List.all_eq_true.mp h p hp

theorem witness_HostErrors :
    mapped.status = .running ∧ ¬ (1 ≤ 0 ∧ 0 ≤ aRound.colors) ∧
      ¬ (1 ≤ 4 ∧ 4 ≤ aRound.colors) := by decide

end Sys2Proof.Tests
end

/-! SUPPORT. Every command as one shape (its checks and its body), what the body leaves in each register, and from that the
statements on the state as a whole. -/

namespace Sys2Proof.Machine

/-! ### A command is its checks and its body -/

/-- The checks that stand before a command's first access, in their order (R247). -/
def checksOf : Instr → State → List (Bool × BlockFault)
  | .acquire, s => [(s.acquired, .alreadyAcquired), (!s.hwAvailable, .hardwareUnavailable)]
  | .release, _ => []
  | .setMode pin _, s => pinChecks pin s
  | .write pin _, s => pinChecks pin s
  | .read pin, s => pinChecks pin s
  | .lcdInit, s => [(!s.acquired, .notAcquired), (decide (s.cfg.lcdBits ≠ 4), .unsupportedConfiguration)]
  | .lcdCmd _, s => lcdChecks s
  | .putChar _, s => lcdChecks s
  | .position _ _, s => lcdChecks s
  | .lcdClear, s => lcdChecks s
  | .lcdDisplay _, s => lcdChecks s
  | .lcdCursor _, s => lcdChecks s
  | .lcdBlink _, s => lcdChecks s
  | .waitInput, s => [(!s.acquired, .notAcquired)]
  | .delay _, _ => []

/-- What a command does once its checks have passed. -/
def bodyOf : Instr → State → State
  | .acquire, s => advance { s with acquired := true }
  | .release, s => { s with acquired := false, timerArmed := false, status := .haltedOk }
  | .setMode pin dir, s => advance (setModeOn (pinOr0 pin) dir s)
  | .write pin level, s => advance (pinWrite (pinOr0 pin) level s)
  | .read pin, s => advance (readOn (pinOr0 pin) s)
  | .lcdInit, s => advance (initConfigured (initActive4 (initCompat8 s)))
  | .lcdCmd b, s => advance (sendByte .low b s)
  | .putChar b, s => advance (putCharOn b s)
  | .position x y, s => advance (positionOn x y s)
  | .lcdClear, s => advance (clearOn s)
  | .lcdDisplay on, s => advance (setCtl 2 on s)
  | .lcdCursor on, s => advance (setCtl 1 on s)
  | .lcdBlink on, s => advance (setCtl 0 on s)
  | .waitInput, s => advance (waitOn s)
  | .delay n, s => advance (delay (n * s.cfg.uHost) s)

theorem exec_eq_perform (i : Instr) (s : State) : exec i s = perform (checksOf i) (bodyOf i) s := by
  cases i <;> rfl

/-- A gap does not decide a check: none of them reads what the other agents move. -/
@[simp] theorem checksOf_gap (i : Instr) (s : State) : checksOf i (gap s) = checksOf i s := by
  cases i <;> simp [checksOf]

/-- A command that answers a next state was performed while the block runs, and is fault entry or its body, after a gap. -/
theorem exec_cases {i : Instr} {s t : State} (h : exec i s = .next t) :
    s.status = .running ∧
      ((∃ f, firstFault (checksOf i s) = some f ∧ t = faultEntry f (gap s)) ∨
        (firstFault (checksOf i s) = none ∧ t = bodyOf i (gap s))) := by
  rw [exec_eq_perform] at h
  obtain ⟨hrun, ht⟩ := perform_next h
  rw [checksOf_gap] at ht
  rcases afterChecks_cases (checksOf i s) (bodyOf i) (gap s) with ⟨f, hf, he⟩ | ⟨hpass, he⟩
  · exact ⟨hrun, .inl ⟨f, hf, ht.trans he⟩⟩
  · exact ⟨hrun, .inr ⟨hpass, ht.trans he⟩⟩

/-- In an ended block no command is performed (R36, R251). -/
theorem exec_haltedOk {s : State} (i : Instr) (h : s.status = .haltedOk) : exec i s = .fault .haltedOk := by
  simp [exec_eq_perform, perform, h]

theorem exec_faulted {s : State} (i : Instr) (h : s.status = .faulted) : exec i s = .fault .faulted := by
  simp [exec_eq_perform, perform, h]

/-- The pin checks let only a valid pin through (R244). -/
theorem pin_lt_of_firstFault_none {pin : Nat} {s : State} (h : firstFault (pinChecks pin s) = none) : pin < 32 := by
  by_contra hpin
  simp [pinChecks, firstFault, nPins, Nat.not_lt.mp hpin] at h

/-! ### A step is a fetch and a command -/

theorem fetch_running {s : State} {w : Word} (hrun : s.status = .running) (hw : s.stream[s.cp]? = some w) :
    fetch s = .word w := by simp [fetch, hrun, hw]

theorem step_command {s : State} {w : Word} {i : Instr} (hf : fetch s = .word w) (hd : decode w = .command i) :
    step s = exec i s := by simp [step, hf, hd]

theorem step_stop {s : State} {f : Fault} (hf : fetch s = .stop f) : step s = .fault f := by simp [step, hf]

theorem fetch_haltedOk {s : State} (h : s.status = .haltedOk) : fetch s = .stop .haltedOk := by simp [fetch, h]

theorem fetch_faulted {s : State} (h : s.status = .faulted) : fetch s = .stop .faulted := by simp [fetch, h]

theorem fetch_idle {s : State} (hrun : s.status = .running) (hw : s.stream[s.cp]? = none) : fetch s = .stop .idle := by
  simp [fetch, hrun, hw]

/-! ### The registers -/

/-- The block's own state without the latches and the timer's two bits: what no transmission to the display changes. -/
def registers (s : State) : State := blockPart { s with latch := 0, timerArmed := false, timerExpired := false }

theorem registers_setModeOn (p : Pin) (dir : Direction) (s : State) :
    registers (setModeOn p dir s) =
      registers { s with
        gpfsel := s.gpfsel.set (fselWord p).val (setField (gpfselWord s (fselWord p)) p (selectorOf dir)) } := by
  simp [registers, blockPart, setModeOn]

theorem registers_pinWrite (p : Pin) (l : Level) (s : State) : registers (pinWrite p l s) = registers s :=
  (transmits_pinWrite p l s).same

theorem registers_delay (n : Nat) (s : State) : registers (delay n s) = registers s := (transmits_delay n s).same

theorem registers_sendByte (l : Level) (b : Byte) (s : State) : registers (sendByte l b s) = registers s :=
  (transmits_sendByte l b s).same

theorem registers_readOn (p : Pin) (s : State) :
    registers (readOn p s) = registers { s with resp := (readOn p s).resp } := by
  simp [registers, blockPart, readOn]

theorem registers_setCtl (i : Nat) (v : Bool) (s : State) :
    registers (setCtl i v s) = registers { s with ctl := setCtlBit s.ctl i v } :=
  registers_sendByte _ _ _

theorem registers_clearOn (s : State) : registers (clearOn s) = registers { s with cx := 0, cy := 0 } := by
  simp [registers, blockPart, clearOn]

theorem registers_putCharOn (b : Byte) (s : State) :
    registers (putCharOn b s) =
      registers { s with cx := (nextCursor s.cfg s.cx s.cy).1, cy := (nextCursor s.cfg s.cx s.cy).2 } := by
  unfold putCharOn
  by_cases h : s.cx + 1 = s.cfg.lcdCols <;> simp [h, registers, blockPart]

/-- The cursor after POSITION x, y: there if it is inside the geometry, else where it was (R164). -/
def positionedCursor (c : Cfg) (x y cx cy : Nat) : Nat × Nat := if inGeometry c x y then (x, y) else (cx, cy)

theorem registers_positionOn (x y : Nat) (s : State) :
    registers (positionOn x y s) = registers { s with
      cx := (positionedCursor s.cfg x y s.cx s.cy).1, cy := (positionedCursor s.cfg x y s.cx s.cy).2 } := by
  unfold positionOn positionedCursor
  split <;> simp [registers, blockPart]

theorem registers_initLines (s : State) : registers (initLines s) = registers s := by
  unfold initLines
  split
  · exact registers_sendByte _ _ _
  · rfl

/-- The last stage of LCD_INIT: display on, cursor and blink off, the cursor at (0, 0), the driver configured (R160). -/
theorem registers_initConfigured (s : State) :
    registers (initConfigured s) = registers { s with cx := 0, cy := 0, ctl := 0b100, lcdMode := .configured } := by
  have hlines := registers_initLines s
  simp only [registers, blockPart, State.mk.injEq, Block.mk.injEq] at hlines
  simp [registers, blockPart, initConfigured, initCtl, setCtlBit, hlines]

theorem registers_init (s : State) :
    registers (initConfigured (initActive4 (initCompat8 s))) =
      registers { s with cx := 0, cy := 0, ctl := 0b100, lcdMode := .configured } := by
  rw [registers_initConfigured]
  simp [registers, blockPart, initActive4, initCompat8]

/-- A wait leaves its own registers, whatever the presses were, and no other (R192, R195). -/
theorem registers_waitOn (s : State) :
    registers (waitOn s) = registers { s with
      prev := (waitOn s).prev
      count := (waitOn s).count
      resp := (waitOn s).resp
      timerFireAt := (waitOn s).timerFireAt } := by
  obtain ⟨es, hpolls, -⟩ := polls_waitLoop (waitFuel (startWait s)) (startWait s) rfl
  have hsame := hpolls.same
  simp only [blockPart, State.mk.injEq, Block.mk.injEq] at hsame
  simp only [registers, blockPart, waitOn, hsame]
  simp [startWait]

theorem registers_advance {s u : State} (h : registers s = registers u) :
    registers (advance s) = registers (advance u) := by
  simp only [registers, blockPart, State.mk.injEq, Block.mk.injEq] at h
  simp [registers, blockPart, advance, h]

/-- What a completed command from `s` to `t` leaves in the registers: the values the spec gives, and `t`'s own where the
environment decides them. -/
def completed (t s : State) : Instr → State
  | .acquire => advance { s with acquired := true }
  | .release => { s with acquired := false, status := .haltedOk }
  | .setMode pin dir =>
    advance { s with
      gpfsel := s.gpfsel.set (fselWord (pinOr0 pin)).val
        (setField (gpfselWord s (fselWord (pinOr0 pin))) (pinOr0 pin) (selectorOf dir)) }
  | .write _ _ => advance s
  | .read _ => advance { s with resp := t.resp }
  | .lcdInit => advance { s with cx := 0, cy := 0, ctl := 0b100, lcdMode := .configured }
  | .lcdCmd _ => advance s
  | .putChar _ => advance { s with cx := (nextCursor s.cfg s.cx s.cy).1, cy := (nextCursor s.cfg s.cx s.cy).2 }
  | .position x y =>
    advance { s with
      cx := (positionedCursor s.cfg x y s.cx s.cy).1, cy := (positionedCursor s.cfg x y s.cx s.cy).2 }
  | .lcdClear => advance { s with cx := 0, cy := 0 }
  | .lcdDisplay on => advance { s with ctl := setCtlBit s.ctl 2 on }
  | .lcdCursor on => advance { s with ctl := setCtlBit s.ctl 1 on }
  | .lcdBlink on => advance { s with ctl := setCtlBit s.ctl 0 on }
  | .waitInput => advance { s with prev := t.prev, count := t.count, resp := t.resp, timerFireAt := t.timerFireAt }
  | .delay _ => advance s

theorem registers_bodyOf (i : Instr) (s : State) : registers (bodyOf i s) = registers (completed (bodyOf i s) s i) := by
  cases i with
  | acquire => rfl
  | release => rfl
  | setMode pin dir => exact registers_advance (registers_setModeOn _ dir s)
  | write pin level => exact registers_advance (registers_pinWrite _ level s)
  | read pin => exact registers_advance (registers_readOn _ s)
  | lcdInit => exact registers_advance (registers_init s)
  | lcdCmd b => exact registers_advance (registers_sendByte .low b s)
  | putChar b => exact registers_advance (registers_putCharOn b s)
  | position x y => exact registers_advance (registers_positionOn x y s)
  | lcdClear => exact registers_advance (registers_clearOn s)
  | lcdDisplay on => exact registers_advance (registers_setCtl 2 on s)
  | lcdCursor on => exact registers_advance (registers_setCtl 1 on s)
  | lcdBlink on => exact registers_advance (registers_setCtl 0 on s)
  | waitInput => exact registers_advance (registers_waitOn s)
  | delay n => exact registers_advance (registers_delay _ s)

theorem registers_completed_gap (t s : State) (i : Instr) :
    registers (completed t (gap s) i) = registers (completed t s i) := by
  cases i <;> simp [registers, blockPart, completed, advance, gpfselWord]

/-- Two states agree in every register (the latches and the timer's two bits are not among them). -/
structure SameRegisters (t u : State) : Prop where
  gpfsel : t.gpfsel = u.gpfsel
  cx : t.cx = u.cx
  cy : t.cy = u.cy
  ctl : t.ctl = u.ctl
  prev : t.prev = u.prev
  count : t.count = u.count
  cp : t.cp = u.cp
  acquired : t.acquired = u.acquired
  lcdMode : t.lcdMode = u.lcdMode
  resp : t.resp = u.resp
  status : t.status = u.status
  faultCause : t.faultCause = u.faultCause
  timerFireAt : t.timerFireAt = u.timerFireAt
  hwAvailable : t.hwAvailable = u.hwAvailable
  cfg : t.cfg = u.cfg
  stream : t.stream = u.stream

theorem sameRegisters_of_eq {t u : State} (h : registers t = registers u) : SameRegisters t u := by
  simp only [registers, blockPart, State.mk.injEq, Block.mk.injEq] at h
  constructor <;> simp only [h]

theorem registers_faultEntry_gap (f : BlockFault) (s : State) :
    registers (faultEntry f (gap s)) = registers (faultEntry f s) := by
  simp [registers, blockPart, faultEntry, emit]

/-- The registers after a command: those of fault entry, or those of the completed command. -/
theorem exec_registers {i : Instr} {s t : State} (h : exec i s = .next t) :
    (∃ f, firstFault (checksOf i s) = some f ∧ SameRegisters t (faultEntry f s)) ∨
      SameRegisters t (completed t s i) := by
  obtain ⟨-, ⟨f, hf, rfl⟩ | ⟨-, rfl⟩⟩ := exec_cases h
  · exact .inl ⟨f, hf, sameRegisters_of_eq (registers_faultEntry_gap f s)⟩
  · exact .inr (sameRegisters_of_eq ((registers_bodyOf i (gap s)).trans (registers_completed_gap _ s i)))

/-! ### What the completed command leaves, register by register -/

section completed

variable (t s : State) (i : Instr)

@[simp] theorem completed_cfg : (completed t s i).cfg = s.cfg := by cases i <;> rfl

@[simp] theorem completed_faultCause : (completed t s i).faultCause = s.faultCause := by cases i <;> rfl

theorem completed_release : (completed t s .release).status = .haltedOk ∧ (completed t s .release).acquired = false ∧
    (completed t s .release).cp = s.cp := ⟨rfl, rfl, rfl⟩

variable {i}

theorem completed_status (h : i ≠ .release) : (completed t s i).status = s.status := by
  cases i <;> simp at h <;> rfl

theorem completed_cp (h : i ≠ .release) : (completed t s i).cp = s.cp + 1 := by
  cases i <;> simp at h <;> rfl

theorem completed_resp (h : respWriter i = false) : (completed t s i).resp = s.resp := by
  cases i <;> simp [respWriter] at h <;> rfl

theorem completed_cursor (h : cursorWriter i = false) :
    (completed t s i).cx = s.cx ∧ (completed t s i).cy = s.cy := by
  cases i <;> simp [cursorWriter] at h <;> exact ⟨rfl, rfl⟩

theorem completed_ctl (h : ctlWriter i = false) : (completed t s i).ctl = s.ctl := by
  cases i <;> simp [ctlWriter] at h <;> rfl

theorem completed_lcdMode (h : i ≠ .lcdInit) : (completed t s i).lcdMode = s.lcdMode := by
  cases i <;> simp at h <;> rfl

theorem completed_waitRegisters (h : i ≠ .waitInput) :
    (completed t s i).prev = s.prev ∧ (completed t s i).count = s.count ∧
      (completed t s i).timerFireAt = s.timerFireAt := by
  cases i <;> simp at h <;> exact ⟨rfl, rfl, rfl⟩

theorem completed_gpfsel (h : writesModes i = false) : (completed t s i).gpfsel = s.gpfsel := by
  cases i <;> simp [writesModes] at h <;> rfl

variable (i)

/-- A pin's field lies in one of the words 0 to 3 (R21), so the last two are never written. -/
theorem completed_gpfsel_last (k : Nat) (hk : k < 6) (h : 4 ≤ k) :
    (completed t s i).gpfsel[k] = s.gpfsel[k] := by
  cases i with
  | setMode pin dir =>
    have hlt := (fselWord (pinOr0 pin)).isLt
    exact Vector.getElem_set_ne (by omega) hk (by omega)
  | _ => rfl

end completed

/-! ### The invariant -/

theorem faultCode_ne_zero (f : BlockFault) : faultCode f ≠ 0 := by cases f <;> decide

theorem nextCursor_inside {c : Cfg} (hc : c.Valid) {cx cy : Nat} (hx : cx < c.lcdCols) (hy : cy < c.lcdRows) :
    (nextCursor c cx cy).1 < c.lcdCols ∧ (nextCursor c cx cy).2 < c.lcdRows := by
  have hcols := hc.cols
  have hrows := hc.rows
  unfold nextCursor
  split
  · split <;> exact ⟨by omega, by omega⟩
  · exact ⟨by omega, hy⟩

theorem positionedCursor_inside {c : Cfg} (x y : Nat) {cx cy : Nat} (hx : cx < c.lcdCols) (hy : cy < c.lcdRows) :
    (positionedCursor c x y cx cy).1 < c.lcdCols ∧ (positionedCursor c x y cx cy).2 < c.lcdRows := by
  unfold positionedCursor
  split
  · next h => simpa [inGeometry] using h
  · exact ⟨hx, hy⟩

/-- Every command leaves the cursor inside the geometry (R27, R163, R164). -/
theorem completed_cursor_inside {s : State} (t : State) (i : Instr) (hc : s.cfg.Valid) (hx : s.cx < s.cfg.lcdCols)
    (hy : s.cy < s.cfg.lcdRows) :
    (completed t s i).cx < s.cfg.lcdCols ∧ (completed t s i).cy < s.cfg.lcdRows := by
  have hhome : 0 < s.cfg.lcdCols ∧ 0 < s.cfg.lcdRows := ⟨by omega, by omega⟩
  cases i with
  | putChar b => exact nextCursor_inside hc hx hy
  | position x y => exact positionedCursor_inside x y hx hy
  | lcdClear => exact hhome
  | lcdInit => exact hhome
  | _ => exact ⟨hx, hy⟩

/-- Fault entry keeps the invariant: it names a cause and releases the block (R250). -/
theorem Inv.of_fault {s t : State} {f : BlockFault} (hs : Inv s) (hr : SameRegisters t (faultEntry f s))
    (ht : t.timerArmed = false) : Inv t where
  cfg := hr.cfg ▸ hs.cfg
  cx := by rw [hr.cx, hr.cfg]; exact hs.cx
  cy := by rw [hr.cy, hr.cfg]; exact hs.cy
  timer := ht
  lcdMode := by rw [hr.lcdMode]; exact hs.lcdMode
  cause := by
    rw [hr.faultCause, hr.status]
    exact iff_of_false (faultCode_ne_zero f) (by simp)
  released _ := hr.acquired

/-- The completion of a command keeps the invariant of a running block. -/
theorem Inv.of_completed {s t : State} {i : Instr} (hs : Inv s) (hrun : s.status = .running)
    (hr : SameRegisters t (completed t s i)) (ht : t.timerArmed = false) : Inv t where
  cfg := by rw [hr.cfg, completed_cfg]; exact hs.cfg
  cx := by rw [hr.cx, hr.cfg, completed_cfg]; exact (completed_cursor_inside t i hs.cfg hs.cx hs.cy).1
  cy := by rw [hr.cy, hr.cfg, completed_cfg]; exact (completed_cursor_inside t i hs.cfg hs.cx hs.cy).2
  timer := ht
  lcdMode := by
    rw [hr.lcdMode]
    by_cases hi : i = .lcdInit
    · subst hi; exact .inr rfl
    · rw [completed_lcdMode t s hi]; exact hs.lcdMode
  cause := by
    have hcause : s.faultCause = 0 := hs.cause.mpr (by simp [hrun])
    rw [hr.faultCause, completed_faultCause, hr.status]
    by_cases hi : i = .release
    · subst hi; simp [hcause, completed_release]
    · simp [hcause, completed_status t s hi, hrun]
  released hend := by
    by_cases hi : i = .release
    · subst hi; exact hr.acquired
    · exact absurd (hr.status.trans ((completed_status t s hi).trans hrun)) hend

/-! ### The latches and the timer -/

/-- From `s` to `t` every latch but those of the pins `ps` is as it was, and a disarmed timer stays disarmed with its flag as it
was. -/
structure LeavesBut (ps : List Nat) (s t : State) : Prop where
  latch : ∀ p : Pin, p.val ∉ ps → t.latch.getLsbD p.val = s.latch.getLsbD p.val
  timer : s.timerArmed = false → t.timerArmed = false ∧ t.timerExpired = s.timerExpired

theorem LeavesBut.then {ps : List Nat} {s t u : State} (h : LeavesBut ps s t) (g : LeavesBut ps t u) :
    LeavesBut ps s u where
  latch p hp := (g.latch p hp).trans (h.latch p hp)
  timer hd :=
    have ⟨harmed, hflag⟩ := h.timer hd
    ⟨(g.timer harmed).1, (g.timer harmed).2.trans hflag⟩

theorem leavesBut_gap (ps : List Nat) (s : State) : LeavesBut ps s (gap s) where
  latch _ _ := by rw [gap_latch]
  timer hd := have ⟨ha, he, _⟩ := gap_disarmed hd; ⟨ha, he⟩

theorem leavesBut_faultEntry (ps : List Nat) (f : BlockFault) (s : State) : LeavesBut ps s (faultEntry f s) :=
  ⟨fun _ _ => rfl, fun _ => ⟨rfl, rfl⟩⟩

theorem LeavesBut.advance {ps : List Nat} {s t : State} (h : LeavesBut ps s t) : LeavesBut ps s (advance t) :=
  ⟨h.latch, h.timer⟩

theorem LeavesBut.mono {ps qs : List Nat} {s t : State} (h : LeavesBut ps s t) (hsub : ps ⊆ qs) : LeavesBut qs s t :=
  ⟨fun p hp => h.latch p (fun hmem => hp (hsub hmem)), h.timer⟩

theorem leavesBut_setModeOn (p : Pin) (dir : Direction) (s : State) : LeavesBut [] s (setModeOn p dir s) where
  latch _ _ := by simp [setModeOn]
  timer hd :=
    have ⟨hgap, hflag, _⟩ := gap_disarmed hd
    have ⟨ha, he, _⟩ := regWrite_disarmed (s := readNow (.gpfsel (fselWord p)) (gap s)) _ _ hgap
    ⟨ha, he.trans hflag⟩

theorem leavesBut_readOn (p : Pin) (s : State) : LeavesBut [] s (readOn p s) where
  latch _ _ := by simp [readOn]
  timer hd := by
    obtain ⟨ha, he, -⟩ := gap_disarmed hd
    simp [readOn, ha, he]

theorem leavesBut_pinWrite (p : Pin) (l : Level) (s : State) : LeavesBut [p.val] s (pinWrite p l s) where
  latch q hq := by
    have hne : q ≠ p := by rintro rfl; simp at hq
    rw [pinWrite_latch_bit, if_neg hne]
  timer hd := have ⟨ha, he, _⟩ := pinWrite_disarmed p l hd; ⟨ha, he⟩

theorem leavesBut_delay (n : Nat) (s : State) : LeavesBut [] s (delay n s) where
  latch _ _ := by rw [delay_latch]
  timer hd := have ⟨ha, he, _⟩ := delay_disarmed n hd; ⟨ha, he⟩

/-- From `s` to `t` no latch but the six LCD pins' was written, under the same configuration. -/
structure Drives (s t : State) : Prop where
  cfg : t.cfg = s.cfg
  leaves : LeavesBut ((s.cfg.pins.take 6).map Fin.val) s t

theorem Drives.refl (s : State) : Drives s s := ⟨rfl, fun _ _ => rfl, fun h => ⟨h, rfl⟩⟩

theorem Drives.then {s t u : State} (h : Drives s t) (g : Drives t u) : Drives s u :=
  ⟨g.cfg.trans h.cfg, h.leaves.then (h.cfg ▸ g.leaves)⟩

/-- The driver's own registers are neither latches nor timer. -/
theorem drives_lcdRegisters (s : State) (x y : Nat) (c : BitVec 3) (m : LcdMode) :
    Drives s { s with cx := x, cy := y, ctl := c, lcdMode := m } := ⟨rfl, fun _ _ => rfl, fun h => ⟨h, rfl⟩⟩

theorem drives_pinWrite {s : State} {p : Pin} (hp : p ∈ s.cfg.pins.take 6) (l : Level) : Drives s (pinWrite p l s) :=
  ⟨pinWrite_cfg s p l, (leavesBut_pinWrite p l s).mono (by simpa using List.mem_map_of_mem hp)⟩

theorem drives_delay (n : Nat) (s : State) : Drives s (delay n s) :=
  ⟨delay_cfg s n, (leavesBut_delay n s).mono (List.nil_subset _)⟩

theorem drives_setRs (l : Level) (s : State) : Drives s (setRs l s) := drives_pinWrite (by simp [Cfg.pins]) l

theorem drives_emitNibble (n : Nibble) (s : State) : Drives s (emitNibble n s) :=
  (((drives_pinWrite (by simp [Cfg.pins]) _).then (drives_pinWrite (by simp [Cfg.pins]) _)).then
    (drives_pinWrite (by simp [Cfg.pins]) _)).then (drives_pinWrite (by simp [Cfg.pins]) _)

theorem drives_strobeTo (l : Level) (s : State) : Drives s (strobeTo l s) :=
  (drives_pinWrite (by simp [Cfg.pins]) l).then (drives_delay _ _)

theorem drives_strobe (s : State) : Drives s (strobe s) := (drives_strobeTo .high s).then (drives_strobeTo .low _)

theorem drives_sendByte (l : Level) (b : Byte) (s : State) : Drives s (sendByte l b s) :=
  ((((drives_setRs l s).then (drives_emitNibble _ _)).then (drives_strobe _)).then (drives_emitNibble _ _)).then
    (drives_strobe _)

theorem drives_put4cmd (n : Nibble) (s : State) : Drives s (put4cmd n s) :=
  ((drives_setRs .low s).then (drives_emitNibble n _)).then (drives_strobe _)

theorem drives_functionSet8 (s : State) : Drives s (functionSet8 s) := (drives_put4cmd _ s).then (drives_delay _ _)

theorem drives_setCtl (i : Nat) (v : Bool) (s : State) : Drives s (setCtl i v s) := by
  unfold setCtl sendCtl
  exact (drives_lcdRegisters s _ _ _ _).then (drives_sendByte _ _ _)

theorem drives_clearOn (s : State) : Drives s (clearOn s) := by
  unfold clearOn
  exact (drives_sendByte _ _ s).then (drives_lcdRegisters _ _ _ _ _)

theorem drives_putCharOn (b : Byte) (s : State) : Drives s (putCharOn b s) := by
  have hchar : ∀ x y : Nat, Drives s { sendByte .high b s with cx := x, cy := y } :=
    fun _ _ => (drives_sendByte .high b s).then (drives_lcdRegisters _ _ _ _ _)
  unfold putCharOn
  dsimp only
  split
  · exact (hchar _ _).then (drives_sendByte _ _ _)
  · exact hchar _ _

theorem drives_positionOn (x y : Nat) (s : State) : Drives s (positionOn x y s) := by
  unfold positionOn
  split
  · exact (drives_sendByte _ _ s).then (drives_lcdRegisters _ _ _ _ _)
  · exact .refl s

theorem drives_initCompat8 (s : State) : Drives s (initCompat8 s) := by
  unfold initCompat8
  exact ((((drives_lcdRegisters s _ _ _ _).then (drives_functionSet8 _)).then (drives_functionSet8 _)).then
    (drives_functionSet8 _)).then (drives_lcdRegisters _ _ _ _ _)

theorem drives_initActive4 (s : State) : Drives s (initActive4 s) := by
  unfold initActive4
  exact (drives_put4cmd _ s).then (drives_lcdRegisters _ _ _ _ _)

theorem drives_initLines (s : State) : Drives s (initLines s) := by
  unfold initLines
  split
  · exact drives_sendByte _ _ s
  · exact .refl s

theorem drives_initCtl (s : State) : Drives s (initCtl s) := by
  unfold initCtl
  exact (((drives_lcdRegisters s _ _ _ _).then (drives_setCtl _ _ _)).then (drives_setCtl _ _ _)).then
    (drives_setCtl _ _ _)

theorem drives_initConfigured (s : State) : Drives s (initConfigured s) := by
  unfold initConfigured
  exact ((((drives_initLines s).then (drives_initCtl _)).then (drives_clearOn _)).then (drives_sendByte _ _ _)).then
    ((drives_sendByte _ _ _).then (drives_lcdRegisters _ _ _ _ _))

theorem drives_init (s : State) : Drives s (initConfigured (initActive4 (initCompat8 s))) :=
  ((drives_initCompat8 s).then (drives_initActive4 _)).then (drives_initConfigured _)

/-- The commands other than WAIT_INPUT, past their checks (R22, R39, R70, R71). -/
theorem leavesBut_bodyOf {i : Instr} {s : State} (hi : i ≠ .waitInput) (hpass : firstFault (checksOf i s) = none) :
    LeavesBut (mayChangeLatch s.cfg i) s (bodyOf i s) := by
  cases i with
  | acquire => exact ⟨fun _ _ => rfl, fun hd => ⟨hd, rfl⟩⟩
  | release => exact ⟨fun _ _ => rfl, fun _ => ⟨rfl, rfl⟩⟩
  | setMode pin dir => exact (leavesBut_setModeOn (pinOr0 pin) dir s).advance
  | write pin level =>
    have hwrite := (leavesBut_pinWrite (pinOr0 pin) level s).advance
    have hval : (pinOr0 pin).val = pin := by rw [pinOr0_val (pin_lt_of_firstFault_none hpass)]
    rwa [hval] at hwrite
  | read pin => exact (leavesBut_readOn (pinOr0 pin) s).advance
  | waitInput => exact absurd rfl hi
  | delay n => exact (leavesBut_delay (n * s.cfg.uHost) s).advance
  | lcdInit => exact (drives_init s).leaves.advance
  | lcdCmd b => exact (drives_sendByte .low b s).leaves.advance
  | putChar b => exact (drives_putCharOn b s).leaves.advance
  | position x y => exact (drives_positionOn x y s).leaves.advance
  | lcdClear => exact (drives_clearOn s).leaves.advance
  | lcdDisplay on => exact (drives_setCtl 2 on s).leaves.advance
  | lcdCursor on => exact (drives_setCtl 1 on s).leaves.advance
  | lcdBlink on => exact (drives_setCtl 0 on s).leaves.advance

theorem exec_leavesBut {i : Instr} {s t : State} (hi : i ≠ .waitInput) (h : exec i s = .next t) :
    LeavesBut (mayChangeLatch s.cfg i) s t := by
  obtain ⟨-, ⟨f, -, rfl⟩ | ⟨hpass, rfl⟩⟩ := exec_cases h
  · exact (leavesBut_gap _ s).then (leavesBut_faultEntry _ f _)
  · have hbody := leavesBut_bodyOf (s := gap s) hi (by rwa [checksOf_gap])
    rw [gap_cfg] at hbody
    exact (leavesBut_gap _ s).then hbody

/-- A wait writes no latch and ends with the timer disarmed: its loop ends by the expiry (R193, R199). -/
theorem waitOn_latch_timer (s : State) : (waitOn s).latch = s.latch ∧ (waitOn s).timerArmed = false := by
  obtain ⟨es, hpolls, harmed, -⟩ := polls_waitLoop (waitFuel (startWait s)) (startWait s) rfl
  obtain ⟨-, hlatch, -⟩ := hpolls.rest
  constructor
  · simp only [waitOn, hlatch]
    simp [startWait]
  · simp only [waitOn, harmed]

theorem exec_waitInput_latch_timer {s t : State} (h : exec .waitInput s = .next t) :
    t.latch = s.latch ∧ t.timerArmed = false := by
  obtain ⟨-, ⟨f, -, rfl⟩ | ⟨-, rfl⟩⟩ := exec_cases h
  · exact ⟨gap_latch s, rfl⟩
  · obtain ⟨hlatch, harmed⟩ := waitOn_latch_timer (gap s)
    simp [bodyOf, hlatch, harmed]

theorem exec_latch {i : Instr} {s t : State} (h : exec i s = .next t) {p : Pin} (hp : p.val ∉ mayChangeLatch s.cfg i) :
    t.latch.getLsbD p.val = s.latch.getLsbD p.val := by
  by_cases hi : i = .waitInput
  · subst hi; rw [(exec_waitInput_latch_timer h).1]
  · exact (exec_leavesBut hi h).latch p hp

theorem exec_timerArmed {i : Instr} {s t : State} (hd : s.timerArmed = false) (h : exec i s = .next t) :
    t.timerArmed = false := by
  by_cases hi : i = .waitInput
  · subst hi; exact (exec_waitInput_latch_timer h).2
  · exact ((exec_leavesBut hi h).timer hd).1

/-! ### The level register -/

/-- Where the offsets are distinct, the level register's is none of the registers that can be written (R62, R67). -/
theorem writeReqAt_gplevOff {c : Cfg} (hc : c.Valid) : writeReqAt c c.gplevOff = none := by
  have hnodup := hc.offsets
  simp only [Cfg.offsets, List.nodup_append, List.nodup_cons, List.mem_cons] at hnodup
  obtain ⟨-, ⟨hset, hclr, -⟩, hfsel⟩ := hnodup
  have hk : ∀ k : Fin 4, c.gplevOff ≠ fselOffset c k := fun k he =>
    hfsel (fselOffset c k) (by simp [fselOffset]) c.gplevOff (by simp) he.symm
  simp only [writeReqAt, if_neg (fun e : c.gplevOff = c.gpsetOff => hset (by simp [e])),
    if_neg (fun e : c.gplevOff = c.gpclrOff => hclr (by simp [e]))]
  simpa using hk

/-! ### A command's next state -/

theorem Inv.of_exec {i : Instr} {s t : State} (hs : Inv s) (h : exec i s = .next t) : Inv t := by
  have ht : t.timerArmed = false := exec_timerArmed hs.timer h
  rcases exec_registers h with ⟨f, -, hr⟩ | hr
  · exact hs.of_fault hr ht
  · exact hs.of_completed (exec_cases h).1 hr ht

theorem Inv.of_reservedWord {s t : State} (hs : Inv s) (h : reservedWord s = .next t) : Inv t := by
  obtain ⟨hrun, -⟩ := perform_next h
  obtain rfl : faultEntry .illegalCommand (gap s) = t := by simpa [reservedWord_running hrun] using h
  exact hs.of_fault (sameRegisters_of_eq (registers_faultEntry_gap .illegalCommand s)) rfl

theorem exec_gpfsel_last {i : Instr} {s t : State} (h : exec i s = .next t) (k : Nat) (hk : k < 6) (h4 : 4 ≤ k) :
    t.gpfsel[k] = s.gpfsel[k] := by
  rcases exec_registers h with ⟨f, -, hr⟩ | hr
  · simp only [hr.gpfsel, faultEntry_gpfsel]
  · simp only [hr.gpfsel, completed_gpfsel_last t s i k hk h4]

/-! ### The statements -/

/-- Settles O11: a step is a command or a reserved word, a command is fault entry or completion, and each keeps the invariant. -/
theorem stepKeepsInv : Obligations.StepKeepsInv := by
  intro s t hs h
  obtain ⟨w, -, ⟨i, -, hexec⟩ | ⟨r, -, hres⟩⟩ := step_next h
  · exact hs.of_exec hexec
  · exact hs.of_reservedWord hres

/-- Settles O14: RELEASE has no check to fail and is the one body that leaves `cp`. -/
theorem commandPointerAdvances : Obligations.CommandPointerAdvances := by
  intro i s t h
  rcases exec_registers h with ⟨f, hf, hr⟩ | hr
  · have hi : i ≠ .release := by rintro rfl; simp [checksOf, firstFault] at hf
    have hstatus : t.status = .faulted := hr.status
    simp [hstatus, hi, hr.cp]
  · by_cases hi : i = .release
    · subst hi
      have hstatus : t.status = .haltedOk := hr.status
      have hcp : t.cp = s.cp := hr.cp
      simp [hstatus, hcp]
    · have hstatus : t.status = .running := hr.status.trans ((completed_status t s hi).trans (exec_cases h).1)
      simp [hstatus, hi, hr.cp, completed_cp t s hi]

/-- Settles O16: SET_MODE replaces a field of words 0 to 3, and the latches are left but those of the command's own pins. -/
theorem registerBlockFrame : Obligations.RegisterBlockFrame := by
  intro i s t h
  refine ⟨fun hi => ?_, exec_gpfsel_last h 4 (by omega) (by omega), exec_gpfsel_last h 5 (by omega) (by omega),
    fun p hp => exec_latch h hp⟩
  rcases exec_registers h with ⟨f, -, hr⟩ | hr
  · exact hr.gpfsel
  · exact hr.gpfsel.trans (completed_gpfsel t s hi)

/-- Settles O17: fault entry writes none of these registers, and a completed command only those its row names. -/
theorem registerWriters : Obligations.RegisterWriters := by
  intro i s t h
  rcases exec_registers h with ⟨f, -, hr⟩ | hr
  · exact ⟨fun _ => hr.resp, fun _ => ⟨hr.cx, hr.cy⟩, fun _ => hr.ctl, fun _ => hr.lcdMode,
      fun _ => ⟨hr.prev, hr.count, hr.timerFireAt⟩⟩
  · refine ⟨fun hi => hr.resp.trans (completed_resp t s hi), fun hi => ?_,
      fun hi => hr.ctl.trans (completed_ctl t s hi), fun hi => hr.lcdMode.trans (completed_lcdMode t s hi), fun hi => ?_⟩
    · obtain ⟨hx, hy⟩ := completed_cursor t s hi
      exact ⟨hr.cx.trans hx, hr.cy.trans hy⟩
    · obtain ⟨hprev, hcount, hfire⟩ := completed_waitRegisters t s hi
      exact ⟨hr.prev.trans hprev, hr.count.trans hcount, hr.timerFireAt.trans hfire⟩

/-- Settles O19: the expiry needs an armed timer, and only a wait arms it. -/
theorem flagDiscipline : Obligations.FlagDiscipline :=
  fun _ _ _ hd h => ⟨exec_timerArmed hd h, fun hi => ((exec_leavesBut hi h).timer hd).2⟩

/-- Settles O30: each bit of the view is the pin's level, and the level register's offset is that of no writable one. -/
theorem levelRegisterView : Obligations.LevelRegisterView := by
  intro s p
  have hbit : (readValue s .gplev).getLsbD p.val = pinLevel s p := gplev_getLsbD s p
  refine ⟨fun hout => ?_, fun hin => ?_, rfl, fun hc v => ?_⟩
  · rw [hbit, pinLevel]; exact if_pos hout
  · rw [hbit, pinLevel]; exact if_neg hin
  · simp [memWrite, writeReqAt_gplevOff hc]

/-- Settles O5: a step is the fetched word, decoded and performed. -/
theorem stepRunsTheDecodedCommand : Obligations.StepRunsTheDecodedCommand :=
  fun _ _ _ hrun hw hd => step_command (fetch_running hrun hw) hd

/-- Settles O7: fetching and performing both stop on the status. -/
theorem endedBlockTakesNoStep : Obligations.EndedBlockTakesNoStep :=
  fun _ i => ⟨fun h => ⟨exec_haltedOk i h, step_stop (fetch_haltedOk h)⟩,
    fun h => ⟨exec_faulted i h, step_stop (fetch_faulted h)⟩,
    fun hrun hw => step_stop (fetch_idle hrun hw)⟩

end Sys2Proof.Machine

/-! SUPPORT. The register block by offset: distinct offsets name distinct registers, what an access by offset does and which byte
stands where, and from that the statements on the block's memory. -/

namespace Sys2Proof.Machine

/-! ### The parameters of a step -/

@[simp] theorem completed_stream (t s : State) (i : Instr) : (completed t s i).stream = s.stream := by cases i <;> rfl

@[simp] theorem completed_hwAvailable (t s : State) (i : Instr) : (completed t s i).hwAvailable = s.hwAvailable := by
  cases i <;> rfl

theorem exec_parameters {i : Instr} {s t : State} (h : exec i s = .next t) :
    t.stream = s.stream ∧ t.cfg = s.cfg ∧ t.hwAvailable = s.hwAvailable := by
  rcases exec_registers h with ⟨f, -, hr⟩ | hr
  · exact ⟨hr.stream, hr.cfg, hr.hwAvailable⟩
  · exact ⟨hr.stream.trans (completed_stream t s i), hr.cfg.trans (completed_cfg t s i),
      hr.hwAvailable.trans (completed_hwAvailable t s i)⟩

theorem reservedWord_parameters {s t : State} (h : reservedWord s = .next t) :
    t.stream = s.stream ∧ t.cfg = s.cfg ∧ t.hwAvailable = s.hwAvailable := by
  obtain ⟨-, rfl⟩ := perform_next h
  simp [afterChecks, firstFault]

theorem step_parameters {s t : State} (h : step s = .next t) :
    t.stream = s.stream ∧ t.cfg = s.cfg ∧ t.hwAvailable = s.hwAvailable := by
  obtain ⟨w, -, ⟨i, -, hexec⟩ | ⟨r, -, hres⟩⟩ := step_next h
  · exact exec_parameters hexec
  · exact reservedWord_parameters hres

/-- Settles O15: neither fault entry nor a completed command writes a parameter, so putting them back changes nothing. -/
theorem streamAndConfigurationNeverChange : Obligations.StreamAndConfigurationNeverChange := by
  refine fun s => ⟨fun t h => step_parameters h, ?_⟩
  have hcases := stepUnder_cases s.cfg s.stream s.toBlock
  rw [toBlock_under] at hcases
  obtain ⟨t, hstep, hunder⟩ | ⟨r, hstep, hunder⟩ | ⟨r, hstep, hunder⟩ := hcases
  · obtain ⟨hstream, hcfg, -⟩ := step_parameters hstep
    have hback : t.toBlock.under s.cfg s.stream = t := by rw [← hcfg, ← hstream, toBlock_under]
    simp [hstep, hunder, andThen, hback]
  · simp [hstep, hunder, andThen]
  · simp [hstep, hunder, andThen]

/-! ### A pin read back -/

/-- A command whose checks pass is its body, after a gap. -/
theorem exec_passing {i : Instr} {s : State} (hrun : s.status = .running) (hpass : firstFault (checksOf i s) = none) :
    exec i s = .next (bodyOf i (gap s)) := by
  rw [exec_eq_perform, perform_running _ _ hrun, checksOf_gap, afterChecks_none hpass]

/-- A pin's direction is a matter of the function-select words alone (R21). -/
theorem field_congr {s t : State} (h : t.gpfsel = s.gpfsel) (p : Pin) : field t p = field s p := by
  simp [field, gpfselWord, h]

theorem pinLevel_output {s : State} {p : Pin} (h : field s p = selOutput) : pinLevel s p = s.latch.getLsbD p.val := by
  simp [pinLevel, h]

/-- READ leaves the pin's level in `resp` (R138). -/
theorem readOn_resp (p : Pin) (s : State) :
    (readOn p s).resp = (BitVec.ofBool (pinLevel (gap s) p)).setWidth 32 := by
  have hlevel : ∀ b : Bool, levelBit (levelOf b) = b := by decide
  simp only [readOn, regRead_fst_gplev, levelIn_eq, gplev_getLsbD, hlevel]

/-- An output pin reads as its latch, whatever the environment does before the read (R25, R76). -/
theorem readOn_resp_output {s : State} {p : Pin} (h : field s p = selOutput) :
    (readOn p s).resp = (BitVec.ofBool (s.latch.getLsbD p.val)).setWidth 32 := by
  have hgap : field (gap s) p = selOutput := (field_congr (gap_gpfsel s) p).trans h
  rw [readOn_resp, pinLevel_output hgap, gap_latch]

/-- A list of commands whose first completes goes on from there. -/
theorem execAll_cons {i : Instr} {is : List Instr} {s t : State} (h : exec i s = .next t) :
    execAll (i :: is) s = execAll is t := by simp [execAll, h]

/-- WRITE of a valid pin on a mapped block is its one register write (R135). -/
theorem exec_write {s : State} (p : Pin) (level : Level) (hrun : s.status = .running) (hacq : s.acquired = true) :
    exec (.write p.val level) s = .next (advance (pinWrite p level (gap s))) := by
  have hpass : firstFault (checksOf (.write p.val level) s) = none := firstFault_pinChecks p.isLt hacq
  rw [exec_passing hrun hpass, bodyOf, pinOr0_val p.isLt]

/-- READ of a valid pin on a mapped block is its one register read (R138). -/
theorem exec_read {s : State} (p : Pin) (hrun : s.status = .running) (hacq : s.acquired = true) :
    exec (.read p.val) s = .next (advance (readOn p (gap s))) := by
  have hpass : firstFault (checksOf (.read p.val) s) = none := firstFault_pinChecks p.isLt hacq
  rw [exec_passing hrun hpass, bodyOf, pinOr0_val p.isLt]

/-- Settles O31: WRITE leaves the level in the pin's latch, no gap changes a latch or a direction, and READ of an output pin
returns its latch. -/
theorem readAfterWriteOfOutputPin : Obligations.ReadAfterWriteOfOutputPin := by
  intro s p level hrun hacq hout
  have hwrite := exec_write p level hrun hacq
  generalize hu : advance (pinWrite p level (gap s)) = u at hwrite
  have hread := exec_read (s := u) p (by simpa [← hu] using hrun) (by simpa [← hu] using hacq)
  refine ⟨_, (execAll_cons hwrite).trans (execAll_cons hread), ?_⟩
  have hfield : field (gap u) p = selOutput := (field_congr (by simp [← hu]) p).trans hout
  have hlatch : (gap u).latch.getLsbD p.val = levelBit level := by
    rw [gap_latch, ← hu, advance_latch, pinWrite_latch_bit, if_pos rfl]
  rw [advance_resp, readOn_resp_output hfield, hlatch]
  cases level <;> rfl

/-! ### Offsets -/

/-- Where the offsets are distinct, no two named registers share one (R62). -/
structure DistinctOffsets (c : Cfg) : Prop where
  fsel : Function.Injective fun k : Fin 6 => c.fselOff[k]
  fsel_set : ∀ k : Fin 6, c.fselOff[k] ≠ c.gpsetOff
  fsel_clr : ∀ k : Fin 6, c.fselOff[k] ≠ c.gpclrOff
  fsel_lev : ∀ k : Fin 6, c.fselOff[k] ≠ c.gplevOff
  set_clr : c.gpsetOff ≠ c.gpclrOff
  set_lev : c.gpsetOff ≠ c.gplevOff
  clr_lev : c.gpclrOff ≠ c.gplevOff

theorem distinctOffsets {c : Cfg} (hc : c.Valid) : DistinctOffsets c := by
  have hnodup := hc.offsets
  simp only [Cfg.offsets, List.nodup_append, List.nodup_cons, List.mem_cons] at hnodup
  obtain ⟨hfsel, ⟨hset, hclr, -⟩, hothers⟩ := hnodup
  have hmem : ∀ k : Fin 6, c.fselOff[k] ∈ c.fselOff.toList := fun k => by simp
  constructor
  · intro j k hjk
    have hjk' : c.fselOff.toList[j.val]'(by simp) = c.fselOff.toList[k.val]'(by simp) := by simpa using hjk
    exact Fin.ext (hfsel.getElem_inj_iff.mp hjk')
  · exact fun k => hothers _ (hmem k) _ (by simp)
  · exact fun k => hothers _ (hmem k) _ (by simp)
  · exact fun k => hothers _ (hmem k) _ (by simp)
  · exact fun h => hset (by simp [h])
  · exact fun h => hset (by simp [h])
  · exact fun h => hclr (by simp [h])

/-- The search for an offset among distinct ones finds the index it belongs to. -/
theorem find?_offset {n : Nat} {f : Fin n → Nat} (hf : Function.Injective f) (j : Fin n) :
    (List.finRange n).find? (fun k => decide (f j = f k)) = some j := by
  cases h : (List.finRange n).find? (fun k => decide (f j = f k)) with
  | none => exact absurd (List.find?_eq_none.mp h j (List.mem_finRange j)) (by simp)
  | some k =>
    have hk : f j = f k := by simpa using List.find?_some h
    rw [hf hk]

theorem fselOffset_injective {c : Cfg} (hc : c.Valid) : Function.Injective (fselOffset c) := fun j k h =>
  Fin.castLE_injective (by decide) ((distinctOffsets hc).fsel h)

/-- The four function-select words an access can name are the first four of the configuration's six (R67). -/
theorem exists_fselOffset {c : Cfg} {off : Nat} :
    (∃ k : Fin 4, off = fselOffset c k) ↔ ∃ k : Fin 6, k.val < 4 ∧ off = c.fselOff[k] :=
  ⟨fun ⟨k, h⟩ => ⟨k.castLE (by decide), k.isLt, h⟩, fun ⟨k, hk, h⟩ => ⟨⟨k.val, hk⟩, h⟩⟩

/-! ### Which accesses an offset admits -/

theorem readReqAt_isSome {c : Cfg} {off : Nat} :
    (readReqAt c off).isSome = true ↔ off = c.gplevOff ∨ ∃ k : Fin 4, off = fselOffset c k := by
  unfold readReqAt
  by_cases hlev : off = c.gplevOff
  · simp [hlev]
  · simp [hlev]

theorem writeReqAt_isSome {c : Cfg} {off : Nat} :
    (writeReqAt c off).isSome = true ↔
      off = c.gpsetOff ∨ off = c.gpclrOff ∨ ∃ k : Fin 4, off = fselOffset c k := by
  unfold writeReqAt
  by_cases hset : off = c.gpsetOff
  · simp [hset]
  · by_cases hclr : off = c.gpclrOff
    · rw [if_neg hset, if_pos hclr]
      simp [hclr]
    · simp [hset, hclr]

theorem memRead_isSome {s : State} {off : Nat} :
    (memRead off s).isSome = true ↔ s.acquired = true ∧ (readReqAt s.cfg off).isSome = true := by
  cases h : s.acquired <;> simp [memRead, h]

theorem memWrite_isSome {s : State} {off : Nat} {v : Word} :
    (memWrite off v s).isSome = true ↔ s.acquired = true ∧ (writeReqAt s.cfg off).isSome = true := by
  cases h : s.acquired <;> simp [memWrite, h]

/-- Settles O32: an access has a step exactly where the block is mapped and its offset names an admitted request. -/
theorem admittedAccesses : Obligations.AdmittedAccesses := by
  intro s off v
  constructor
  · rw [memRead_isSome, readReqAt_isSome, exists_fselOffset]
  · rw [memWrite_isSome, writeReqAt_isSome, exists_fselOffset]

/-- A request's offset names that request (R61, R67). -/
theorem readReqAt_readOffset {c : Cfg} (hc : c.Valid) (r : ReadReq) : readReqAt c (readOffset c r) = some r := by
  cases r with
  | gplev => simp [readReqAt, readOffset]
  | gpfsel k =>
    have hlev : fselOffset c k ≠ c.gplevOff := (distinctOffsets hc).fsel_lev (k.castLE (by decide))
    change readReqAt c (fselOffset c k) = _
    rw [readReqAt, if_neg hlev, find?_offset (fselOffset_injective hc) k, Option.map_some]

/-- The request an offset names goes to that offset (R61, R67). -/
theorem writeOffset_of_writeReqAt {c : Cfg} {off : Nat} {r : WriteReq} (h : writeReqAt c off = some r) :
    off = writeOffset c r := by
  unfold writeReqAt at h
  split at h
  · cases h; assumption
  · split at h
    · cases h; assumption
    · obtain ⟨k, hk, rfl⟩ := Option.map_eq_some_iff.mp h
      have hoff : off = fselOffset c k := by simpa using List.find?_some hk
      exact hoff

/-! ### What a write does -/

/-- A write by offset that has a step is the register write of the request the offset names. -/
theorem memWrite_some {s t : State} {off : Nat} {v : Word} (h : memWrite off v s = some t) :
    ∃ r, off = writeOffset s.cfg r ∧ t = regWrite r v s := by
  unfold memWrite at h
  split at h
  · obtain ⟨r, hr, rfl⟩ := Option.map_eq_some_iff.mp h
    exact ⟨r, writeOffset_of_writeReqAt hr, rfl⟩
  · cases h

@[simp] theorem regWrite_gpset_gpfsel (v : Word) (s : State) : (regWrite .gpset v s).gpfsel = s.gpfsel := by
  simp [regWrite, store]

@[simp] theorem regWrite_gpclr_gpfsel (v : Word) (s : State) : (regWrite .gpclr v s).gpfsel = s.gpfsel := by
  simp [regWrite, store]

/-- The set register sets the latches of the word's 1 bits (R70). -/
theorem regWrite_gpset_latch_bit (v : Word) (s : State) (p : Pin) :
    (regWrite .gpset v s).latch.getLsbD p.val = if v.getLsbD p.val then true else s.latch.getLsbD p.val := by
  rw [regWrite_gpset_latch, BitVec.getLsbD_or]
  cases v.getLsbD p.val <;> simp

/-- The clear register clears the latches of the word's 1 bits (R71). -/
theorem regWrite_gpclr_latch_bit (v : Word) (s : State) (p : Pin) :
    (regWrite .gpclr v s).latch.getLsbD p.val = if v.getLsbD p.val then false else s.latch.getLsbD p.val := by
  rw [regWrite_gpclr_latch, BitVec.getLsbD_and, BitVec.getLsbD_not]
  cases v.getLsbD p.val <;> simp

/-- While the timer is disarmed a register write is its effect on the block and nothing else. -/
theorem blockPart_regWrite {s : State} (r : WriteReq) (v : Word) (hd : s.timerArmed = false) :
    blockPart (regWrite r v s) = blockPart (store r v s) := by
  obtain ⟨harmed, hflag, -⟩ := regWrite_disarmed r v hd
  cases r <;> simp [blockPart, harmed, hflag, store, hd]

/-- Settles O33: the offset names the request, and a request's write is its effect on the latches or on a function-select word. -/
theorem deviceWriteRules : Obligations.DeviceWriteRules := by
  intro s t off v hc hd h
  obtain ⟨r, rfl, rfl⟩ := memWrite_some h
  have hne := distinctOffsets hc
  refine ⟨(regWrite_disarmed r v hd).2.2, fun hset => ?_, fun hclr => ?_, fun k hk => ?_⟩
  · cases r with
    | gpset =>
      exact ⟨by rw [blockPart_regWrite _ v hd, regWrite_gpset_latch, store], regWrite_gpset_latch_bit v s⟩
    | gpclr => exact absurd hset.symm hne.set_clr
    | gpfsel j => exact absurd hset (hne.fsel_set (j.castLE (by decide)))
  · cases r with
    | gpset => exact absurd hclr hne.set_clr
    | gpclr =>
      exact ⟨by rw [blockPart_regWrite _ v hd, regWrite_gpclr_latch, store], regWrite_gpclr_latch_bit v s⟩
    | gpfsel j => exact absurd hclr (hne.fsel_clr (j.castLE (by decide)))
  · cases r with
    | gpset => exact absurd hk.symm (hne.fsel_set k)
    | gpclr => exact absurd hk.symm (hne.fsel_clr k)
    | gpfsel j =>
      obtain rfl : k = j.castLE (by decide) := hne.fsel hk.symm
      rw [blockPart_regWrite _ v hd, store]
      rfl

/-! ### The block as bytes -/

theorem wordAt_gplevOff (s : State) : wordAt s s.cfg.gplevOff = some (gplev s) := by simp [wordAt]

theorem wordAt_fselOff {s : State} (hc : s.cfg.Valid) (k : Fin 6) : wordAt s s.cfg.fselOff[k] = some s.gpfsel[k] := by
  have hne := distinctOffsets hc
  simp only [wordAt, if_neg (hne.fsel_lev k), find?_offset hne.fsel k, Option.map_some]

/-- An offset that is none of the level register's and the function-select words' holds no word (R23, R24, R26). -/
theorem wordAt_none {s : State} {off : Nat} (hlev : off ≠ s.cfg.gplevOff) (hfsel : ∀ k : Fin 6, off ≠ s.cfg.fselOff[k]) :
    wordAt s off = none := by
  simpa [wordAt, hlev] using hfsel

/-- What an admitted read returns is the word that stands at its offset. -/
theorem wordAt_readOffset {s : State} (hc : s.cfg.Valid) (r : ReadReq) :
    wordAt s (readOffset s.cfg r) = some (readValue s r) := by
  cases r with
  | gplev => exact wordAt_gplevOff s
  | gpfsel k => exact wordAt_fselOff hc (k.castLE (by decide))

/-- Byte `j` from an aligned offset is byte `j` of the word there, counted from the low end (R64). -/
theorem storedByte_aligned (s : State) {off j : Nat} (halign : off % 4 = 0) (hj : j < 4) :
    storedByte s (off + j) = (wordAt s off).map fun w => w.extractLsb' (8 * j) 8 := by
  have hmod : (off + j) % 4 = j := by omega
  rw [storedByte, hmod, Nat.add_sub_cancel]

theorem readOffset_mem_offsets (c : Cfg) (r : ReadReq) : readOffset c r ∈ c.offsets := by
  cases r <;> simp [readOffset, fselOffset, Cfg.offsets]

/-- Settles O55: every named offset is aligned, the function-select words and the level register stand at theirs, and no word
stands at the set and clear registers'. -/
theorem storedBytesAreLittleEndian : Obligations.StoredBytesAreLittleEndian := by
  intro s hc
  have hne := distinctOffsets hc
  have hbyte : ∀ off ∈ s.cfg.offsets, ∀ j < 4,
      storedByte s (off + j) = (wordAt s off).map fun w => w.extractLsb' (8 * j) 8 :=
    fun off hoff j hj => storedByte_aligned s (hc.aligned off hoff).1 hj
  refine ⟨fun r j hj => ?_, fun k j hj => ?_, fun r hacq => ?_, fun j hj => ⟨?_, ?_⟩⟩
  · rw [hbyte _ (readOffset_mem_offsets s.cfg r) j hj, wordAt_readOffset hc, Option.map_some]
  · rw [hbyte _ (by simp [Cfg.offsets]) j hj, wordAt_fselOff hc, Option.map_some]
  · exact ⟨(regRead r s).2, by simp [memRead, hacq, readReqAt_readOffset hc, regRead]⟩
  · rw [hbyte _ (by simp [Cfg.offsets]) j hj, wordAt_none hne.set_lev fun k => (hne.fsel_set k).symm, Option.map_none]
  · rw [hbyte _ (by simp [Cfg.offsets]) j hj, wordAt_none hne.clr_lev fun k => (hne.fsel_clr k).symm, Option.map_none]

end Sys2Proof.Machine

/-! SUPPORT. The formats of R92 to R98 as one shape per command (its opcode, how many operand bits it uses, which number they
hold, which command a word's fields give), and from that the statements on decoding and encoding. -/

namespace Sys2Proof

open Laws.OpcodeField (opcode)

/-! ### A command's format -/

/-- How many of the bits `[23:0]` the command's format assigns, from bit 0 up; the rest are zero (R91 to R98). -/
def usedBits : Instr → Nat
  | .acquire | .release | .lcdInit | .lcdClear | .waitInput => 0
  | .lcdDisplay _ | .lcdCursor _ | .lcdBlink _ => 1
  | .read _ | .lcdCmd _ | .putChar _ => 8
  | .setMode _ _ | .write _ _ => 9
  | .position _ _ => 16
  | .delay _ => 24

/-- The number the operand bits of the command's word hold (R93 to R98). -/
def operand : Instr → Nat
  | .acquire | .release | .lcdInit | .lcdClear | .waitInput => 0
  | .setMode pin dir => directionNat dir * 2 ^ 8 + pin
  | .write pin level => levelNat level * 2 ^ 8 + pin
  | .read pin => pin
  | .lcdCmd b | .putChar b => b.toNat
  | .position x y => y * 2 ^ 8 + x
  | .lcdDisplay on | .lcdCursor on | .lcdBlink on => boolNat on
  | .delay n => n

/-- The command of the same row whose operands are the fields of `w` (R99). -/
def readFields (w : Word) : Instr → Instr
  | .setMode _ _ => .setMode (bitField w 0 8) (directionOfNat (bitField w 8 1))
  | .write _ _ => .write (bitField w 0 8) (levelOfNat (bitField w 8 1))
  | .read _ => .read (bitField w 0 8)
  | .lcdCmd _ => .lcdCmd (BitVec.ofNat 8 (bitField w 0 8))
  | .putChar _ => .putChar (BitVec.ofNat 8 (bitField w 0 8))
  | .position _ _ => .position (bitField w 0 8) (bitField w 8 8)
  | .lcdDisplay _ => .lcdDisplay (decide (bitField w 0 1 = 1))
  | .lcdCursor _ => .lcdCursor (decide (bitField w 0 1 = 1))
  | .lcdBlink _ => .lcdBlink (decide (bitField w 0 1 = 1))
  | .delay _ => .delay (bitField w 0 24)
  | i => i

/-- `w` has the opcode of the command's row, and zero in every bit the row's format does not assign (R91, R101). -/
def HasFormat (w : Word) (i : Instr) : Prop :=
  bitField w 24 8 = opcode i ∧ bitField w (usedBits i) (24 - usedBits i) = 0

theorem opcode_lt (i : Instr) : opcode i < 256 := by cases i <;> simp [opcode]

theorem usedBits_le (i : Instr) : usedBits i ≤ 24 := by cases i <;> simp [usedBits]

theorem encode_eq_wordOf (i : Instr) : encode i = wordOf (opcode i) (operand i) := by cases i <;> rfl

@[simp] theorem opcode_readFields (w : Word) (i : Instr) : opcode (readFields w i) = opcode i := by cases i <;> rfl

@[simp] theorem usedBits_readFields (w : Word) (i : Instr) : usedBits (readFields w i) = usedBits i := by cases i <;> rfl

@[simp] theorem rowOf_readFields (w : Word) (i : Instr) : rowOf (readFields w i) = rowOf i := by cases i <;> rfl

@[simp] theorem readFields_readFields (v w : Word) (i : Instr) : readFields v (readFields w i) = readFields v i := by
  cases i <;> rfl

theorem hasFormat_readFields {v w : Word} {i : Instr} : HasFormat v (readFields w i) ↔ HasFormat v i := by
  simp [HasFormat]

/-! ### What decoding answers -/

/-- The opcode selects the row, and the row's format is checked (R101). -/
theorem decode_of_opcode {w : Word} {i : Instr} (h : bitField w 24 8 = opcode i) :
    decode w = checked w (opcode i) (usedBits i) (readFields w i) := by
  unfold decode
  rw [h]
  cases i <;> rfl

/-- The commands a word decodes to: the one of its row with the word's fields, if the word has the row's format. -/
theorem decode_eq_command_iff {w : Word} {i : Instr} : decode w = .command i ↔ HasFormat w i ∧ readFields w i = i := by
  constructor
  · intro h
    unfold decode at h
    split at h
    case h_16 => cases h
    all_goals
      obtain ⟨hzero, rfl⟩ := checked_command h
      exact ⟨⟨‹_›, hzero⟩, rfl⟩
  · rintro ⟨⟨hop, hzero⟩, hread⟩
    rw [decode_of_opcode hop, checked, if_pos hzero, hread]

/-- A word of a command's format decodes to the command of that row with the word's fields. -/
theorem decode_of_hasFormat {w : Word} {i : Instr} (h : HasFormat w i) : decode w = .command (readFields w i) :=
  decode_eq_command_iff.2 ⟨hasFormat_readFields.2 h, readFields_readFields w w i⟩

/-! ### The fields of a command's word -/

theorem directionOfNat_directionNat (dir : Direction) : directionOfNat (directionNat dir) = dir := by cases dir <;> rfl

theorem levelOfNat_levelNat (level : Level) : levelOfNat (levelNat level) = level := by cases level <;> rfl

theorem decide_boolNat (b : Bool) : decide (boolNat b = 1) = b := by cases b <;> rfl

theorem directionNat_lt (dir : Direction) : directionNat dir < 2 := by cases dir <;> decide

theorem levelNat_lt (level : Level) : levelNat level < 2 := by cases level <;> decide

theorem boolNat_lt (b : Bool) : boolNat b < 2 := by cases b <;> decide

theorem directionNat_directionOfNat {n : Nat} (h : n < 2) : directionNat (directionOfNat n) = n := by
  interval_cases n <;> rfl

theorem levelNat_levelOfNat {n : Nat} (h : n < 2) : levelNat (levelOfNat n) = n := by interval_cases n <;> rfl

theorem boolNat_decide {n : Nat} (h : n < 2) : boolNat (decide (n = 1)) = n := by interval_cases n <;> rfl

theorem bitField_lt (w : Word) (lo width : Nat) : bitField w lo width < 2 ^ width := Nat.mod_lt _ (by positivity)

/-- The operands of a well-formed command fit the bits its format assigns (R93 to R98). -/
theorem operand_lt {i : Instr} (h : i.wellFormed = true) : operand i < 2 ^ usedBits i := by
  cases i <;> simp only [Instr.wellFormed, Bool.and_eq_true, decide_eq_true_eq] at h <;> simp only [operand, usedBits]
  case setMode pin dir => have := directionNat_lt dir; omega
  case write pin level => have := levelNat_lt level; omega
  case lcdCmd b => exact b.isLt
  case putChar b => exact b.isLt
  case lcdDisplay on => exact boolNat_lt on
  case lcdCursor on => exact boolNat_lt on
  case lcdBlink on => exact boolNat_lt on
  all_goals omega

theorem operand_lt_word {i : Instr} (h : i.wellFormed = true) : operand i < 2 ^ 24 :=
  (operand_lt h).trans_le (Nat.pow_le_pow_right (by decide) (usedBits_le i))

/-- A field of a command's word, below its opcode, is that field of its operand number. -/
theorem bitField_encode {i : Instr} (h : i.wellFormed = true) {lo width : Nat} (hw : lo + width ≤ 24) :
    bitField (encode i) lo width = operand i / 2 ^ lo % 2 ^ width := by
  rw [encode_eq_wordOf, bitField_wordOf_operand (opcode_lt i) (operand_lt_word h) hw]

theorem hasFormat_encode {i : Instr} (h : i.wellFormed = true) : HasFormat (encode i) i := by
  refine ⟨?_, ?_⟩
  · rw [encode_eq_wordOf, bitField_wordOf_opcode (opcode_lt i) (operand_lt_word h)]
  · have := usedBits_le i
    rw [bitField_encode h (by omega), Nat.div_eq_of_lt (operand_lt h), Nat.zero_mod]

/-- The low byte of an operand number of two fields. -/
theorem packed_low {hi lo : Nat} (h : lo < 256) : (hi * 2 ^ 8 + lo) / 2 ^ 0 % 2 ^ 8 = lo := by omega

/-- The field above the low byte of an operand number of two fields. -/
theorem packed_high {hi lo width : Nat} (h : lo < 256) (hhi : hi < 2 ^ width) :
    (hi * 2 ^ 8 + lo) / 2 ^ 8 % 2 ^ width = hi := by
  rw [show (hi * 2 ^ 8 + lo) / 2 ^ 8 = hi by omega, Nat.mod_eq_of_lt hhi]

/-- An operand number of one field. -/
theorem single_field {n width : Nat} (h : n < 2 ^ width) : n / 2 ^ 0 % 2 ^ width = n := by
  rw [pow_zero, Nat.div_one, Nat.mod_eq_of_lt h]

/-- The fields of a well-formed command's word are its operands: none is dropped or moved (R99). -/
theorem readFields_encode {i : Instr} (h : i.wellFormed = true) : readFields (encode i) i = i := by
  have hfits := h
  cases i <;> simp only [Instr.wellFormed, Bool.and_eq_true, decide_eq_true_eq] at hfits <;>
    simp (disch := decide) only [readFields, bitField_encode h, operand]
  case setMode pin dir => rw [packed_low hfits, packed_high hfits (directionNat_lt dir), directionOfNat_directionNat]
  case write pin level => rw [packed_low hfits, packed_high hfits (levelNat_lt level), levelOfNat_levelNat]
  case read pin => rw [single_field hfits]
  case lcdCmd b => rw [single_field b.isLt, BitVec.ofNat_toNat, BitVec.setWidth_eq]
  case putChar b => rw [single_field b.isLt, BitVec.ofNat_toNat, BitVec.setWidth_eq]
  case position x y => rw [packed_low hfits.1, packed_high hfits.1 hfits.2]
  case lcdDisplay on => rw [single_field (boolNat_lt on), decide_boolNat]
  case lcdCursor on => rw [single_field (boolNat_lt on), decide_boolNat]
  case lcdBlink on => rw [single_field (boolNat_lt on), decide_boolNat]
  case delay n => rw [single_field hfits]

/-- Settles O2: a command's word has its row's format, and its fields are the command's operands. -/
theorem decodeOfEncode : Obligations.DecodeOfEncode := fun _ h =>
  decode_eq_command_iff.2 ⟨hasFormat_encode h, readFields_encode h⟩

/-! ### The word of a decoded command -/

/-- The fields of a word fit the operands they become. -/
theorem wellFormed_readFields (w : Word) (i : Instr) : (readFields w i).wellFormed = true := by
  have hbyte := bitField_lt w 0 8
  have hbyte8 := bitField_lt w 8 8
  have hall := bitField_lt w 0 24
  cases i <;> simp only [readFields, Instr.wellFormed, Bool.and_eq_true, decide_eq_true_eq] <;> omega

/-- Of a word whose unassigned bits are zero, the fields make up all the operand bits. -/
theorem operand_readFields {w : Word} {i : Instr} (h : bitField w (usedBits i) (24 - usedBits i) = 0) :
    operand (readFields w i) = bitField w 0 24 := by
  cases i <;>
    simp only [readFields, operand, usedBits, directionNat_directionOfNat (bitField_lt w 8 1),
      levelNat_levelOfNat (bitField_lt w 8 1), boolNat_decide (bitField_lt w 0 1), BitVec.toNat_ofNat] at h ⊢ <;>
    unfold bitField at h ⊢ <;> omega

/-- Encoding the command of a word's row with the word's fields gives the word back. -/
theorem encode_readFields {w : Word} {i : Instr} (h : HasFormat w i) : encode (readFields w i) = w := by
  obtain ⟨hop, hzero⟩ := h
  rw [encode_eq_wordOf, opcode_readFields, operand_readFields hzero, ← hop, wordOf_fields]

/-- Settles O3: a decoded command is made of the word's fields. -/
theorem encodeOfDecode : Obligations.EncodeOfDecode := by
  intro w i h
  obtain ⟨hformat, hread⟩ := decode_eq_command_iff.1 h
  rw [← hread]
  exact ⟨wellFormed_readFields w i, encode_readFields hformat⟩

/-! ### The rows of the opcode map -/

/-- One command of each row, in the order of R100. -/
def rowCommands : List Instr :=
  [.acquire, .release, .setMode 0 .input, .write 0 .low, .read 0, .lcdInit, .lcdCmd 0, .putChar 0, .position 0 0, .lcdClear,
   .lcdDisplay false, .lcdCursor false, .lcdBlink false, .waitInput, .delay 0]

theorem opcodeRows_eq : opcodeRows = rowCommands.map rowOf := rfl

theorem exists_rowOf {r : Word × Word} (h : r ∈ opcodeRows) : ∃ i, rowOf i = r := by
  rw [opcodeRows_eq, List.mem_map] at h
  obtain ⟨i, -, hi⟩ := h
  exact ⟨i, hi⟩

theorem rowOf_mem (i : Instr) : rowOf i ∈ opcodeRows := by cases i <;> simp [rowOf, opcodeRows]

/-- The columns of a row: its opcode, and every bit but those its format assigns (R100). -/
theorem rowOf_eq (i : Instr) : rowOf i = (wordOf (opcode i) 0, BitVec.allOnes 32 <<< usedBits i) := by
  cases i <;> simp only [rowOf, opcode, usedBits, Prod.mk.injEq] <;> decide

/-- Masking a word by all bits from `k` up takes away what is below. -/
theorem and_allOnes_shiftLeft {n : Nat} (w : BitVec n) (k : Nat) : w &&& BitVec.allOnes n <<< k = w >>> k <<< k := by
  ext j hj
  by_cases hk : j < k
  · simp [hk]
  · simp [hk, BitVec.getLsbD_eq_getElem, hj, Nat.add_sub_cancel' (Nat.not_lt.mp hk)]

theorem toNat_and_allOnes_shiftLeft (w : Word) (k : Nat) :
    (w &&& BitVec.allOnes 32 <<< k).toNat = w.toNat / 2 ^ k * 2 ^ k := by
  have hlt : w.toNat / 2 ^ k * 2 ^ k < 2 ^ 32 := (Nat.div_mul_le_self _ _).trans_lt w.isLt
  rw [and_allOnes_shiftLeft, BitVec.toNat_shiftLeft, BitVec.toNat_ushiftRight, Nat.shiftLeft_eq,
    Nat.shiftRight_eq_div_pow, Nat.mod_eq_of_lt hlt]

/-- A word matches a row under its mask when it has the row's format (R100, R101). -/
theorem matchesRow_rowOf {w : Word} {i : Instr} : matchesRow w (rowOf i) = true ↔ HasFormat w i := by
  have hlt := w.isLt
  have hop := wordOf_toNat (opcode_lt i) (x := 0) (by decide)
  rw [matchesRow, decide_eq_true_eq, rowOf_eq, ← BitVec.toNat_inj, toNat_and_allOnes_shiftLeft, hop, HasFormat]
  unfold bitField
  cases i <;> simp only [usedBits, opcode] <;> omega

/-- Settles O4: the row a word matches is that of the command it decodes to, and decoding is a function. -/
theorem decodeFollowsOpcodeMap : Obligations.DecodeFollowsOpcodeMap := by
  have hcommand : ∀ (w : Word) (r : Word × Word), r ∈ opcodeRows → matchesRow w r = true →
      ∃ i, decode w = .command i ∧ rowOf i = r ∧ i.wellFormed = true ∧ encode i = w := by
    intro w r hr hmatch
    obtain ⟨i, rfl⟩ := exists_rowOf hr
    have hformat := matchesRow_rowOf.1 hmatch
    exact ⟨readFields w i, decode_of_hasFormat hformat, rowOf_readFields w i, wellFormed_readFields w i,
      encode_readFields hformat⟩
  refine ⟨hcommand, fun w hnone => ?_, fun w r q hr hq hwr hwq => ?_⟩
  · cases hd : decode w with
    | command i =>
      have hmatch := matchesRow_rowOf.2 (decode_eq_command_iff.1 hd).1
      simp [hnone _ (rowOf_mem i)] at hmatch
    | reserved reason => exact ⟨reason, rfl⟩
  · obtain ⟨i, hi, rfl, -⟩ := hcommand w r hr hwr
    obtain ⟨j, hj, rfl, -⟩ := hcommand w q hq hwq
    rw [hi, Decoded.command.injEq] at hj
    rw [hj]

/-- Settles O1: the words of 95_test_vectors section 3, evaluated. -/
theorem sampleWordsDecode : Obligations.SampleWordsDecode := by
  unfold Obligations.SampleWordsDecode
  decide

end Sys2Proof

/-! SUPPORT. The Register I/O family (40_register_io): fault entry as a command's whole effect, what the accesses of WRITE, SET_MODE
and READ do to the block and to the trace, the fields of a function-select word, and from that the statements on the family. -/

namespace Sys2Proof.Machine

/-! ### A command that faults -/

/-- A command whose checks fail from a state with the timer disarmed is fault entry and nothing else (R250). -/
theorem exec_faulting {i : Instr} {s : State} {f : BlockFault} (hrun : s.status = .running) (hd : s.timerArmed = false)
    (hf : firstFault (checksOf i s) = some f) : ∃ t, exec i s = .next t ∧ FaultedWith (faultCode f) s t := by
  obtain ⟨-, -, htrace⟩ := gap_disarmed hd
  have hexec : exec i s = .next (faultEntry f (gap s)) := by
    rw [exec_eq_perform, perform_running _ _ hrun, checksOf_gap, afterChecks_some hf]
  refine ⟨_, hexec, ?_, congrArg (· ++ [Event.fault (faultCode f)]) htrace⟩
  exact congrArg (fun b : State =>
    { b with faultCause := faultCode f, status := .faulted, acquired := false, timerArmed := false }) (blockPart_gap hd)

theorem firstFault_pinChecks_invalid {pin : Nat} (s : State) (h : 32 ≤ pin) :
    firstFault (pinChecks pin s) = some .invalidPin := by
  simp [pinChecks, firstFault, nPins, h]

theorem firstFault_pinChecks_unmapped {pin : Nat} {s : State} (hpin : pin < 32) (hacq : s.acquired = false) :
    firstFault (pinChecks pin s) = some .notAcquired := by
  simp [pinChecks, firstFault, nPins, Nat.not_le.mpr hpin, hacq]

/-- The two faults of a pin command: the pin index first, then the mapping (R247). -/
theorem exec_pinFaults {i : Instr} {s : State} {pin : Nat} (hi : checksOf i s = pinChecks pin s)
    (hrun : s.status = .running) (hd : s.timerArmed = false) :
    (32 ≤ pin → ∃ t, exec i s = .next t ∧ FaultedWith 17 s t) ∧
      (pin < 32 → s.acquired = false → ∃ t, exec i s = .next t ∧ FaultedWith 18 s t) :=
  ⟨fun h => exec_faulting hrun hd (hi ▸ firstFault_pinChecks_invalid s h),
    fun h hacq => exec_faulting hrun hd (hi ▸ firstFault_pinChecks_unmapped h hacq)⟩

/-- A pin command that answers a next state on a mapped block is its body. -/
theorem exec_pinCommand {i : Instr} {s t : State} {p : Pin} (hi : checksOf i s = pinChecks p.val s)
    (hacq : s.acquired = true) (h : exec i s = .next t) : t = bodyOf i (gap s) := by
  obtain ⟨-, ⟨f, hf, -⟩ | ⟨-, ht⟩⟩ := exec_cases h
  · rw [hi, firstFault_pinChecks p.isLt hacq] at hf; cases hf
  · exact ht

/-- SET_MODE of a valid pin on a mapped block is its two accesses (R131). -/
theorem exec_setMode {s : State} (p : Pin) (dir : Direction) (hrun : s.status = .running) (hacq : s.acquired = true) :
    exec (.setMode p.val dir) s = .next (advance (setModeOn p dir (gap s))) := by
  have hpass : firstFault (checksOf (.setMode p.val dir) s) = none := firstFault_pinChecks p.isLt hacq
  rw [exec_passing hrun hpass, bodyOf, pinOr0_val p.isLt]

/-! ### WRITE's one access -/

/-- The one access of WRITE, with the gap before it (R135). -/
theorem transmits_gap_pinWrite (p : Pin) (l : Level) (s : State) :
    Transmits s (pinWrite p l (gap s)) [pinEvent s.cfg p l] := by
  simpa using (transmits_pinWrite p l (gap s)).gapped

/-- WRITE of a valid pin on a mapped block, for both levels at once: the pin's latch, `cp`, and the one `W` event (R135). -/
theorem exec_write_effect {s : State} (p : Pin) (level : Level) (hrun : s.status = .running) (hd : s.timerArmed = false)
    (hacq : s.acquired = true) :
    ∃ t, exec (.write p.val level) s = .next t ∧
      blockPart t = blockPart { s with latch := latchWith s.latch p level, cp := s.cp + 1 } ∧
      t.trace = s.trace ++ [pinEvent s.cfg p level] := by
  have hwrite := transmits_gap_pinWrite p level s
  obtain ⟨-, -, htrace⟩ := hwrite.disarmed hd
  refine ⟨_, exec_write p level hrun hacq, ?_, htrace⟩
  have hblock := hwrite.blockPart_eq hd
  rw [pinWrite_latch, gap_latch] at hblock
  exact congrArg advance hblock

/-! ### SET_MODE's two accesses -/

/-- The function-select word SET_MODE writes (R131). -/
def setModeWord (s : State) (p : Pin) (dir : Direction) : Word :=
  setField (gpfselWord s (fselWord p)) p (selectorOf dir)

theorem setModeOn_eq (p : Pin) (dir : Direction) (s : State) :
    setModeOn p dir s = regWrite (.gpfsel (fselWord p)) (setModeWord s p dir) (readNow (.gpfsel (fselWord p)) (gap s)) := by
  simp [setModeOn, setModeWord]

theorem setModeOn_gpfsel (p : Pin) (dir : Direction) (s : State) :
    (setModeOn p dir s).gpfsel = s.gpfsel.set (fselWord p).val (setModeWord s p dir) := by
  simp [setModeOn_eq]

@[simp] theorem setModeWord_gap (s : State) (p : Pin) (dir : Direction) : setModeWord (gap s) p dir = setModeWord s p dir := by
  simp [setModeWord, gpfselWord]

/-- The function-select words after SET_MODE of a valid pin on a mapped block (R131). -/
theorem exec_setMode_gpfsel {s t : State} {p : Pin} {dir : Direction} (hacq : s.acquired = true)
    (h : exec (.setMode p.val dir) s = .next t) : t.gpfsel = s.gpfsel.set (fselWord p).val (setModeWord s p dir) := by
  have ht : t = advance (setModeOn (pinOr0 p.val) dir (gap s)) := exec_pinCommand rfl hacq h
  rw [ht, advance_gpfsel, pinOr0_val p.isLt, setModeOn_gpfsel, gap_gpfsel, setModeWord_gap]

theorem blockPart_store {s u : State} (r : WriteReq) (v : Word) (h : blockPart s = blockPart u) :
    blockPart (store r v s) = blockPart (store r v u) := by
  cases r with
  | gpfsel k => exact congrArg (store (.gpfsel k) v) h
  | gpset => exact congrArg (store .gpset v) h
  | gpclr => exact congrArg (store .gpclr v) h

theorem blockPart_setModeOn {s u : State} (p : Pin) (dir : Direction) (hd : s.timerArmed = false)
    (hu : blockPart s = blockPart u) :
    blockPart (setModeOn p dir s) = blockPart (store (.gpfsel (fselWord p)) (setModeWord s p dir) u) := by
  have harmed : (readNow (.gpfsel (fselWord p)) (gap s)).timerArmed = false := (gap_disarmed hd).1
  rw [setModeOn_eq, blockPart_regWrite _ _ harmed]
  exact blockPart_store _ _ ((blockPart_gap hd).trans hu)

theorem setModeOn_trace {s : State} (p : Pin) (dir : Direction) (hd : s.timerArmed = false) :
    (setModeOn p dir s).trace = s.trace ++
      [.read (fselOffset s.cfg (fselWord p)) (gpfselWord s (fselWord p)),
        .write (fselOffset s.cfg (fselWord p)) (setModeWord s p dir)] := by
  obtain ⟨hgap, -, htrace⟩ := gap_disarmed hd
  have harmed : (readNow (.gpfsel (fselWord p)) (gap s)).timerArmed = false := hgap
  rw [setModeOn_eq, (regWrite_disarmed _ _ harmed).2.2]
  simp [htrace, readOffset, writeOffset, readValue, gpfselWord]

/-! ### READ's one access -/

theorem gplev_readOn (p : Pin) (s : State) : gplev (readOn p s) = gplev (gap s) := rfl

theorem readOn_trace {s : State} (p : Pin) (hd : s.timerArmed = false) :
    (readOn p s).trace = s.trace ++ [.read s.cfg.gplevOff (gplev (readOn p s))] := by
  obtain ⟨-, -, htrace⟩ := gap_disarmed hd
  rw [gplev_readOn]
  simp [readOn, htrace, readOffset, readValue]

theorem readOn_resp_gplev (p : Pin) (s : State) :
    (readOn p s).resp = if (gplev (readOn p s)).getLsbD p.val then 1 else 0 := by
  rw [readOn_resp, gplev_readOn, gplev_getLsbD]
  cases pinLevel (gap s) p <;> rfl

theorem blockPart_readOn {s u : State} (p : Pin) (hd : s.timerArmed = false) (hu : blockPart s = blockPart u) :
    blockPart (readOn p s) = blockPart { u with resp := if (gplev (readOn p s)).getLsbD p.val then 1 else 0 } := by
  rw [← readOn_resp_gplev]
  exact congrArg (fun b : State => { b with resp := (readOn p s).resp }) ((blockPart_gap hd).trans hu)

/-! ### The fields of a function-select word -/

/-- Bit by bit: the three bits of the pin's field are the selector's, the others are the word's (R131, R134). -/
theorem setField_getLsbD (w : Word) (p : Pin) (sel : BitVec 3) {i : Nat} (hi : i < 32) :
    (setField w p sel).getLsbD i =
      if fselShift p ≤ i ∧ i < fselShift p + 3 then sel.getLsbD (i - fselShift p) else w.getLsbD i := by
  have hmask : 7#32 = (BitVec.allOnes 3).setWidth 32 := rfl
  simp only [setField, hmask, BitVec.getLsbD_or, BitVec.getLsbD_and, BitVec.getLsbD_not, BitVec.getLsbD_shiftLeft,
    BitVec.getLsbD_setWidth, BitVec.getLsbD_allOnes]
  by_cases hlow : i < fselShift p
  · simp [hi, hlow, Nat.not_le.mpr hlow]
  · by_cases hhigh : i < fselShift p + 3
    · have hin : i - fselShift p < 3 := by omega
      have hfit : i - fselShift p < 32 := by omega
      simp [hi, hlow, hhigh, hin, hfit, Nat.not_lt.mp hlow]
    · have hout : ¬ i - fselShift p < 3 := by omega
      simp [hi, hlow, hhigh, hout, BitVec.getLsbD_of_ge sel _ (Nat.not_lt.mp hout)]

theorem fselShift_le (p : Pin) : fselShift p ≤ 27 := by
  unfold fselShift fselPerWord
  omega

/-- The pin's field reads back as the selector (R134). -/
theorem getField_setField_same (w : Word) (p : Pin) (sel : BitVec 3) : getField (setField w p sel) p = sel := by
  have hshift := fselShift_le p
  refine BitVec.eq_of_getLsbD_eq fun i hi => ?_
  rw [getField, BitVec.getLsbD_extractLsb', setField_getLsbD w p sel (by omega)]
  simp [hi]

/-- Fields of one word do not overlap, so another pin's is as it was (R134). -/
theorem getField_setField_ne (w : Word) {p q : Pin} (sel : BitVec 3) (hword : fselWord q = fselWord p) (hne : q ≠ p) :
    getField (setField w p sel) q = getField w q := by
  have hapart : fselShift q + 3 ≤ fselShift p ∨ fselShift p + 3 ≤ fselShift q := by
    have hval : q.val ≠ p.val := Fin.val_ne_of_ne hne
    simp only [fselWord, fselPerWord, Fin.mk.injEq] at hword
    simp only [fselShift, fselPerWord]
    omega
  have hshift := fselShift_le q
  refine BitVec.eq_of_getLsbD_eq fun i hi => ?_
  have houtside : ¬ (fselShift p ≤ fselShift q + i ∧ fselShift q + i < fselShift p + 3) := by omega
  simp only [getField, BitVec.getLsbD_extractLsb']
  rw [setField_getLsbD w p sel (by omega), if_neg houtside]

/-- No field reaches the two top bits (R132 (d)). -/
theorem setField_top (w : Word) (p : Pin) (sel : BitVec 3) : (setField w p sel).extractLsb' 30 2 = w.extractLsb' 30 2 := by
  have hshift := fselShift_le p
  refine BitVec.eq_of_getLsbD_eq fun i hi => ?_
  have houtside : ¬ (fselShift p ≤ 30 + i ∧ 30 + i < fselShift p + 3) := by omega
  simp only [BitVec.getLsbD_extractLsb']
  rw [setField_getLsbD w p sel (by omega), if_neg houtside]

/-! ### The statements -/

/-- Settles O22: the checks in R130's order, then the mapping and `cp`, which no gap undoes. -/
theorem acquireEffect : Obligations.AcquireEffect := by
  intro s hrun hd
  refine ⟨fun hacq => ?_, fun hacq hhw => ?_, fun hacq hhw => ?_⟩
  · exact exec_faulting hrun hd (f := .alreadyAcquired) (by simp [checksOf, firstFault, hacq])
  · exact exec_faulting hrun hd (f := .hardwareUnavailable) (by simp [checksOf, firstFault, hacq, hhw])
  · have hpass : firstFault (checksOf .acquire s) = none := by simp [checksOf, firstFault, hacq, hhw]
    refine ⟨_, exec_passing hrun hpass, ?_, (gap_disarmed hd).2.2⟩
    exact congrArg (fun b : State => { b with acquired := true, cp := b.cp + 1 }) (blockPart_gap hd)

/-- Settles O23: RELEASE has no check, so it completes; it writes `acquired`, `timer.armed` and `status`. -/
theorem releaseEffect : Obligations.ReleaseEffect := by
  intro s hrun
  have hexec : exec .release s = .next (bodyOf .release (gap s)) := exec_passing hrun rfl
  refine ⟨⟨_, hexec, ⟨rfl, rfl, rfl⟩, rfl⟩, fun hd => ⟨_, hexec, ?_, (gap_disarmed hd).2.2⟩⟩
  exact congrArg (fun b : State => { b with acquired := false, timerArmed := false, status := .haltedOk })
    (blockPart_gap hd)

/-- Settles O24: the pin checks, then one read and one write of the word the pin's field lies in. -/
theorem setModeEffect : Obligations.SetModeEffect := by
  intro s pin dir hrun hd
  obtain ⟨hinvalid, hunmapped⟩ := exec_pinFaults (i := .setMode pin dir) rfl hrun hd
  refine ⟨hinvalid, hunmapped, fun k hpin hk hacq => ?_⟩
  lift pin to Pin using hpin
  obtain rfl : k = (fselWord pin).castLE (by decide) := Fin.ext hk
  obtain ⟨harmed, -, htrace⟩ := gap_disarmed hd
  refine ⟨_, setModeWord s pin dir, exec_setMode pin dir hrun hacq, ?_, ?_, ?_⟩
  · cases dir <;> rfl
  · have hblock := blockPart_setModeOn pin dir harmed (blockPart_gap hd)
    rw [setModeWord_gap] at hblock
    exact congrArg advance hblock
  · rw [advance_trace, setModeOn_trace pin dir harmed, htrace, gap_cfg, setModeWord_gap]
    simp [gpfselWord, fselOffset]

/-- Settles O25: SET_MODE replaces one field of one word; the fields of a word do not overlap, and none reaches bits 31 and 30. -/
theorem setModePreservesNeighbours : Obligations.SetModePreservesNeighbours := by
  intro s t pin dir hacq h
  have hgpfsel := exec_setMode_gpfsel hacq h
  have hsel : selectorOf dir = if dir = .output then 0b001#3 else 0b000#3 := by cases dir <;> rfl
  refine ⟨?_, fun q hq => ?_, fun k => ?_⟩
  · simp only [field, gpfselWord, hgpfsel, Vector.getElem_set_self]
    rw [setModeWord, getField_setField_same, hsel]
  · by_cases hword : fselWord q = fselWord pin
    · simp only [field, gpfselWord, hgpfsel, hword, Vector.getElem_set_self]
      rw [setModeWord, getField_setField_ne _ _ hword hq, gpfselWord]
    · have hindex : (fselWord pin).val ≠ (fselWord q).val := fun h => hword (Fin.ext h.symm)
      simp only [field, gpfselWord, hgpfsel, Vector.getElem_set_ne _ _ hindex]
  · by_cases hword : (fselWord pin).val = k.val
    · simp only [hgpfsel, Fin.getElem_fin, ← hword, Vector.getElem_set_self]
      rw [setModeWord, setField_top, gpfselWord]
    · simp only [hgpfsel, Fin.getElem_fin, Vector.getElem_set_ne _ _ hword]

/-- Settles O27: the pin checks, then the one write of the pin's mask, which sets or clears its latch. -/
theorem writeEffect : Obligations.WriteEffect := by
  intro s pin level hrun hd
  obtain ⟨hinvalid, hunmapped⟩ := exec_pinFaults (i := .write pin level) rfl hrun hd
  refine ⟨hinvalid, hunmapped, ?_, ?_⟩
  · rintro hpin hacq rfl
    exact exec_write_effect ⟨pin, hpin⟩ .high hrun hd hacq
  · rintro hpin hacq rfl
    exact exec_write_effect ⟨pin, hpin⟩ .low hrun hd hacq

/-- Settles O28: WRITE's one register write gives the pin's latch the level. -/
theorem writeSetsOneLatch : Obligations.WriteSetsOneLatch := by
  intro s t pin level hacq h
  have ht : t = advance (pinWrite (pinOr0 pin.val) level (gap s)) := exec_pinCommand rfl hacq h
  have hbit : ∀ q : Pin, t.latch.getLsbD q.val = if q = pin then levelBit level else s.latch.getLsbD q.val := fun q => by
    rw [ht, advance_latch, pinOr0_val pin.isLt, pinWrite_latch_bit, gap_latch]
  refine ⟨?_, fun q hq => by rw [hbit, if_neg hq]⟩
  rw [hbit, if_pos rfl]
  cases level <;> rfl

/-- Settles O29: the pin checks, then the one read, whose word is also the level register's after the command. -/
theorem readEffect : Obligations.ReadEffect := by
  intro s pin hrun hd
  obtain ⟨hinvalid, hunmapped⟩ := exec_pinFaults (i := .read pin) rfl hrun hd
  refine ⟨hinvalid, hunmapped, fun hpin hacq => ?_⟩
  lift pin to Pin using hpin
  obtain ⟨harmed, -, htrace⟩ := gap_disarmed hd
  refine ⟨_, exec_read pin hrun hacq, ?_, ?_⟩
  · exact congrArg advance (blockPart_readOn pin harmed (blockPart_gap hd))
  · rw [advance_trace, readOn_trace pin harmed, htrace, gap_cfg]
    rfl

end Sys2Proof.Machine

/-! SUPPORT. The LCD driver's commands (41_lcd_driver): the events a command leaves as a function of the block alone (`eventsOf`),
the latches and the trace they make, the bus trace of each transmission, and from that the statements on the driver. -/

namespace Sys2Proof.Machine

/-! ### Leaving events -/

/-- From `s` to `t` exactly the register accesses and delays `es` were made while the timer was disarmed, and the latches are those
the writes leave. Of the other registers nothing is said: the driver's own may change on the way (`Transmits` says they do not). -/
structure Sends (s t : State) (es : List Event) : Prop where
  cfg : t.cfg = s.cfg
  disarmed : s.timerArmed = false → t.timerArmed = false ∧ t.trace = s.trace ++ es
  latch : s.cfg.gpsetOff ≠ s.cfg.gpclrOff → t.latch = latchAfter s.cfg s.latch es

theorem Transmits.sends {s t : State} {es : List Event} (h : Transmits s t es) : Sends s t es :=
  ⟨h.cfg_eq, fun hd => have ⟨ha, _, htr⟩ := h.disarmed hd; ⟨ha, htr⟩, h.latch⟩

theorem Sends.then {s t u : State} {es fs : List Event} (h : Sends s t es) (g : Sends t u fs) : Sends s u (es ++ fs) where
  cfg := g.cfg.trans h.cfg
  disarmed hd := by
    obtain ⟨ht, htr⟩ := h.disarmed hd
    obtain ⟨hu, hur⟩ := g.disarmed ht
    exact ⟨hu, by rw [hur, htr, List.append_assoc]⟩
  latch hc := by rw [latchAfter_append, ← h.latch hc, ← h.cfg, g.latch (by rwa [h.cfg])]

theorem Sends.of_eq {s t : State} {es fs : List Event} (h : Sends s t es) (e : es = fs) : Sends s t fs := e ▸ h

theorem Sends.advance {s t : State} {es : List Event} (h : Sends s t es) : Sends s (advance t) es :=
  ⟨h.cfg, h.disarmed, h.latch⟩

theorem sends_refl (s : State) : Sends s s [] := (Transmits.refl s).sends

theorem sends_gap (s : State) : Sends s (gap s) [] := (Transmits.refl (gap s)).gapped.sends

/-- Setting the driver's own registers is no access. -/
theorem sends_lcdRegisters (s : State) (x y : Nat) (c : BitVec 3) (m : LcdMode) :
    Sends s { s with cx := x, cy := y, ctl := c, lcdMode := m } [] :=
  ⟨rfl, fun hd => ⟨hd, by simp⟩, fun _ => rfl⟩

theorem sends_sendByte (l : Level) (b : Byte) (s : State) : Sends s (sendByte l b s) (byteEvents s.cfg l b) :=
  (transmits_sendByte l b s).sends

theorem sends_put4cmd (n : Nibble) (s : State) : Sends s (put4cmd n s) (put4cmdEvents s.cfg n) :=
  (transmits_put4cmd n s).sends

theorem sends_functionSet8 (s : State) : Sends s (functionSet8 s) (functionSetEvents s.cfg) :=
  (transmits_functionSet8 s).sends

/-- Sending a byte and then setting the driver's own registers. -/
theorem sends_sendByte_lcdRegisters (l : Level) (b : Byte) (s : State) (x y : Nat) (c : BitVec 3) (m : LcdMode) :
    Sends s { sendByte l b s with cx := x, cy := y, ctl := c, lcdMode := m } (byteEvents s.cfg l b) :=
  ((sends_sendByte l b s).then (sends_lcdRegisters _ x y c m)).of_eq (List.append_nil _)

/-- `send_ctl` after one bit of `ctl` has been set (R166 to R169). -/
theorem sends_setCtl (i : Nat) (v : Bool) (s : State) :
    Sends s (setCtl i v s) (byteEvents s.cfg .low (ctlByte (setCtlBit s.ctl i v))) :=
  (sends_lcdRegisters s s.cx s.cy (setCtlBit s.ctl i v) s.lcdMode).then (sends_sendByte .low _ _)

theorem sends_clearOn (s : State) : Sends s (clearOn s) (byteEvents s.cfg .low lcdClearCmd) :=
  sends_sendByte_lcdRegisters .low lcdClearCmd s 0 0 _ _

/-- What POSITION leaves: the set-address inside the geometry, else nothing (R164). -/
def positionEvents (c : Cfg) (x y : Nat) : List Event :=
  if inGeometry c x y then byteEvents c .low (setAddress x y) else []

theorem sends_positionOn (x y : Nat) (s : State) : Sends s (positionOn x y s) (positionEvents s.cfg x y) := by
  unfold positionOn positionEvents
  split
  · exact sends_sendByte_lcdRegisters .low _ s x y _ _
  · exact sends_refl s

/-- What PUT_CHAR leaves with the cursor at `(cx, cy)`: the character, and on a wrap the set-address of the new line (R163). -/
def putCharEvents (c : Cfg) (cx cy : Nat) (b : Byte) : List Event :=
  byteEvents c .high b ++
    if cx + 1 = c.lcdCols then byteEvents c .low (setAddress (nextCursor c cx cy).1 (nextCursor c cx cy).2) else []

theorem sends_putCharOn (b : Byte) (s : State) : Sends s (putCharOn b s) (putCharEvents s.cfg s.cx s.cy b) := by
  have hchar := sends_sendByte_lcdRegisters .high b s (nextCursor s.cfg s.cx s.cy).1 (nextCursor s.cfg s.cx s.cy).2
    (sendByte .high b s).ctl (sendByte .high b s).lcdMode
  unfold putCharOn putCharEvents
  by_cases hwrap : s.cx + 1 = s.cfg.lcdCols
  · simpa [hwrap] using hchar.then (sends_sendByte .low _ _)
  · simpa [hwrap] using hchar

/-! ### LCD_INIT, stage by stage (R160) -/

theorem sends_initCompat8 (s : State) :
    Sends s (initCompat8 s) (functionSetEvents s.cfg ++ functionSetEvents s.cfg ++ functionSetEvents s.cfg) := by
  have hthree := (((sends_lcdRegisters s s.cx s.cy s.ctl .uninit).then (sends_functionSet8 _)).then
    (sends_functionSet8 _)).then (sends_functionSet8 _)
  exact (hthree.then (sends_lcdRegisters _ _ _ _ .compat8)).of_eq (by simp)

theorem sends_initActive4 (s : State) : Sends s (initActive4 s) (put4cmdEvents s.cfg 0x2) :=
  ((sends_put4cmd (highNibble lcdFunc) s).then (sends_lcdRegisters _ _ _ _ .active4)).of_eq (List.append_nil _)

theorem sends_initLines (s : State) :
    Sends s (initLines s) (if 1 < s.cfg.lcdRows then byteEvents s.cfg .low 0x28 else []) := by
  unfold initLines
  split
  · exact sends_sendByte .low _ s
  · exact sends_refl s

theorem sends_initCtl (s : State) :
    Sends s (initCtl s) (byteEvents s.cfg .low 0x0C ++ byteEvents s.cfg .low 0x0C ++ byteEvents s.cfg .low 0x0C) := by
  have hthree := (((sends_lcdRegisters s s.cx s.cy 0 s.lcdMode).then (sends_setCtl 2 true _)).then
    (sends_setCtl 1 false _)).then (sends_setCtl 0 false _)
  refine hthree.of_eq ?_
  simp only [setCtl_cfg, setCtl_ctl]
  rfl

theorem sends_initConfigured (s : State) :
    Sends s (initConfigured s)
      ((if 1 < s.cfg.lcdRows then byteEvents s.cfg .low 0x28 else []) ++ byteEvents s.cfg .low 0x0C ++
        byteEvents s.cfg .low 0x0C ++ byteEvents s.cfg .low 0x0C ++ byteEvents s.cfg .low 0x01 ++
        byteEvents s.cfg .low 0x06 ++ byteEvents s.cfg .low 0x14) := by
  have hcfg := (sends_initLines s).cfg
  have hctl := (sends_initLines s).then (sends_initCtl _)
  have hctlcfg := hctl.cfg
  have hentry := (hctl.then (sends_clearOn _)).then (sends_sendByte .low (lcdEntry ||| lcdEntryId) _)
  refine (hentry.then (sends_sendByte_lcdRegisters .low (lcdCdShift ||| lcdCdShiftRl) _ _ _ _ .configured)).of_eq ?_
  simp only [sendByte_cfg, clearOn_cfg, hcfg, hctlcfg, List.append_assoc]
  rfl

/-- LCD_INIT leaves exactly the handshake (R160, vector L3). -/
theorem sends_init (s : State) :
    Sends s (initConfigured (initActive4 (initCompat8 s))) (initEvents s.cfg) := by
  have hfour := (sends_initCompat8 s).then (sends_initActive4 _)
  have hall := hfour.then (sends_initConfigured _)
  refine hall.of_eq ?_
  simp only [hfour.cfg, (sends_initCompat8 s).cfg, initEvents, List.append_assoc]

/-! ### The events of a command -/

/-- What a completed command that reads no pin leaves in the trace. The two that read one (READ, WAIT_INPUT) leave what the
environment decides, and have no entry of their own here. -/
def eventsOf : Instr → State → List Event
  | .setMode pin dir, s =>
    [.read (fselOffset s.cfg (fselWord (pinOr0 pin))) (gpfselWord s (fselWord (pinOr0 pin))),
      .write (fselOffset s.cfg (fselWord (pinOr0 pin))) (setModeWord s (pinOr0 pin) dir)]
  | .write pin level, s => [pinEvent s.cfg (pinOr0 pin) level]
  | .lcdInit, s => initEvents s.cfg
  | .lcdCmd b, s => byteEvents s.cfg .low b
  | .putChar b, s => putCharEvents s.cfg s.cx s.cy b
  | .position x y, s => positionEvents s.cfg x y
  | .lcdClear, s => byteEvents s.cfg .low lcdClearCmd
  | .lcdDisplay on, s => byteEvents s.cfg .low (ctlByte (setCtlBit s.ctl 2 on))
  | .lcdCursor on, s => byteEvents s.cfg .low (ctlByte (setCtlBit s.ctl 1 on))
  | .lcdBlink on, s => byteEvents s.cfg .low (ctlByte (setCtlBit s.ctl 0 on))
  | .delay n, s => [.delay (n * s.cfg.uHost)]
  | .acquire, _ => []
  | .release, _ => []
  | .read _, _ => []
  | .waitInput, _ => []

@[simp] theorem eventsOf_gap (i : Instr) (s : State) : eventsOf i (gap s) = eventsOf i s := by
  cases i <;> simp [eventsOf, gpfselWord]

/-- Where the offsets are distinct, a write of a function-select word is no write of a latch (R69). -/
theorem sends_setModeOn {s : State} (hc : s.cfg.Valid) (p : Pin) (dir : Direction) :
    Sends s (setModeOn p dir s)
      [.read (fselOffset s.cfg (fselWord p)) (gpfselWord s (fselWord p)),
        .write (fselOffset s.cfg (fselWord p)) (setModeWord s p dir)] where
  cfg := by simp [setModeOn]
  disarmed hd := ⟨((leavesBut_setModeOn p dir s).timer hd).1, setModeOn_trace p dir hd⟩
  latch _ := by
    have hset := (distinctOffsets hc).fsel_set ((fselWord p).castLE (by decide))
    have hclr := (distinctOffsets hc).fsel_clr ((fselWord p).castLE (by decide))
    simp only [Fin.getElem_fin, Fin.val_castLE] at hset hclr
    simp [setModeOn, latchStep, fselOffset, hset, hclr]

/-- A command that reads no pin leaves its events, past its checks. -/
theorem sends_bodyOf {i : Instr} {s : State} (hc : s.cfg.Valid) (hi : readsPins i = false) :
    Sends s (bodyOf i s) (eventsOf i s) := by
  cases i with
  | acquire => exact ⟨rfl, fun hd => ⟨hd, (List.append_nil _).symm⟩, fun _ => rfl⟩
  | release => exact ⟨rfl, fun _ => ⟨rfl, (List.append_nil _).symm⟩, fun _ => rfl⟩
  | setMode pin dir => exact (sends_setModeOn hc _ dir).advance
  | write pin level => exact (transmits_pinWrite _ level s).sends.advance
  | read pin => simp [readsPins] at hi
  | lcdInit => exact (sends_init s).advance
  | lcdCmd b => exact (sends_sendByte .low b s).advance
  | putChar b => exact (sends_putCharOn b s).advance
  | position x y => exact (sends_positionOn x y s).advance
  | lcdClear => exact (sends_clearOn s).advance
  | lcdDisplay on => exact (sends_setCtl 2 on s).advance
  | lcdCursor on => exact (sends_setCtl 1 on s).advance
  | lcdBlink on => exact (sends_setCtl 0 on s).advance
  | waitInput => simp [readsPins] at hi
  | delay n => exact (transmits_delay _ s).sends.advance

/-! ### The whole effect of a command -/

@[simp] theorem completed_timerArmed (t s : State) (i : Instr) : (completed t s i).timerArmed = s.timerArmed := by
  cases i <;> rfl

@[simp] theorem completed_timerExpired (t s : State) (i : Instr) : (completed t s i).timerExpired = s.timerExpired := by
  cases i <;> rfl

/-- The block's own state is the registers, the latches and the timer's two bits. -/
theorem blockPart_of_registers {t u : State} (h : registers t = registers u) :
    blockPart t =
      blockPart { u with latch := t.latch, timerArmed := t.timerArmed, timerExpired := t.timerExpired } :=
  congrArg (fun b : State => { b with latch := t.latch, timerArmed := t.timerArmed, timerExpired := t.timerExpired }) h

/-- A command between two commands whose checks pass and whose body leaves the events `es`: its registers, the latches the events
leave, the flag as it was, and `es` in the trace. -/
theorem exec_effect {i : Instr} {s : State} {es : List Event} (hrun : s.status = .running) (hd : s.timerArmed = false)
    (hc : s.cfg.gpsetOff ≠ s.cfg.gpclrOff) (hi : i ≠ .waitInput) (hpass : firstFault (checksOf i s) = none)
    (hbody : Sends (gap s) (bodyOf i (gap s)) es) :
    ∃ t, exec i s = .next t ∧
      blockPart t = blockPart { completed t s i with latch := latchAfter s.cfg s.latch es } ∧
      t.trace = s.trace ++ es := by
  have hexec := exec_passing hrun hpass
  have hsends := (sends_gap s).then hbody
  obtain ⟨harmed, htrace⟩ := hsends.disarmed hd
  obtain ⟨-, hexpired⟩ := (exec_leavesBut hi hexec).timer hd
  refine ⟨_, hexec, ?_, htrace⟩
  rw [blockPart_of_registers ((registers_bodyOf i (gap s)).trans (registers_completed_gap _ s i)),
    hsends.latch hc, harmed, hexpired]
  simp [blockPart, hd]

/-- The same for every command that reads no pin. -/
theorem exec_eventsOf {i : Instr} {s : State} (hrun : s.status = .running) (hd : s.timerArmed = false)
    (hc : s.cfg.Valid) (hi : readsPins i = false) (hpass : firstFault (checksOf i s) = none) :
    ∃ t, exec i s = .next t ∧
      blockPart t = blockPart { completed t s i with latch := latchAfter s.cfg s.latch (eventsOf i s) } ∧
      t.trace = s.trace ++ eventsOf i s := by
  have hbody := sends_bodyOf (s := gap s) (by rwa [gap_cfg]) hi
  rw [eventsOf_gap] at hbody
  exact exec_effect hrun hd (gpset_ne_gpclr hc) (by rintro rfl; simp [readsPins] at hi) hpass hbody

/-! ### What the environment moves decides nothing -/

@[simp] theorem checksOf_blockPart (i : Instr) (s : State) : checksOf i (blockPart s) = checksOf i s := by cases i <;> rfl

@[simp] theorem eventsOf_blockPart (i : Instr) (s : State) : eventsOf i (blockPart s) = eventsOf i s := by cases i <;> rfl

theorem blockPart_completed (t s : State) (i : Instr) : blockPart (completed t s i) = blockPart (completed t (blockPart s) i) := by
  cases i <;> rfl

/-- Without a pin read, what a command leaves is decided by the state it starts from. -/
theorem completed_of_readsPins {i : Instr} (hi : readsPins i = false) (t u s : State) : completed t s i = completed u s i := by
  cases i <;> simp [readsPins] at hi <;> rfl

/-- The effect of a command that reads no pin, faults included, as a function of the block's own state: what it ends as, and what
it leaves in the trace. -/
def outcomeOf (i : Instr) (b : State) : State × List Event :=
  match firstFault (checksOf i b) with
  | some f => (blockPart (faultEntry f b), [.fault (faultCode f)])
  | none => (blockPart { completed b b i with latch := latchAfter b.cfg b.latch (eventsOf i b) }, eventsOf i b)

theorem exec_outcomeOf {i : Instr} {s t : State} (hd : s.timerArmed = false) (hc : s.cfg.Valid)
    (hi : readsPins i = false) (h : exec i s = .next t) :
    blockPart t = (outcomeOf i (blockPart s)).1 ∧ t.trace = s.trace ++ (outcomeOf i (blockPart s)).2 := by
  obtain ⟨hrun, ⟨f, hf, -⟩ | ⟨hpass, -⟩⟩ := exec_cases h
  · obtain ⟨u, hu, hblock, htrace⟩ := exec_faulting hrun hd hf
    obtain rfl : u = t := by simpa [hu] using h
    simp only [outcomeOf, checksOf_blockPart, hf]
    exact ⟨hblock, htrace⟩
  · obtain ⟨u, hu, hblock, htrace⟩ := exec_eventsOf hrun hd hc hi hpass
    obtain rfl : u = t := by simpa [hu] using h
    simp only [outcomeOf, checksOf_blockPart, hpass, eventsOf_blockPart]
    refine ⟨?_, htrace⟩
    rw [hblock, completed_of_readsPins hi u (blockPart s)]
    exact congrArg (fun b : State => { b with latch := latchAfter s.cfg s.latch (eventsOf i s) })
      (blockPart_completed (blockPart s) s i)

/-- Settles O20: what a command that reads no pin ends as and leaves in the trace is a function of the block's own state. -/
theorem environmentIsInvisible : Obligations.EnvironmentIsInvisible := by
  intro i s r t u hi hc hd hblock hs hr
  have hsame : r.timerArmed = s.timerArmed ∧ r.cfg = s.cfg := by
    simp only [blockPart, State.mk.injEq, Block.mk.injEq] at hblock
    simp only [hblock, and_self]
  obtain ⟨htb, htt⟩ := exec_outcomeOf hd hc hi hs
  obtain ⟨hub, hut⟩ := exec_outcomeOf (hsame.1.trans hd) (hsame.2 ▸ hc) hi hr
  rw [hblock] at hub hut
  exact ⟨hub.trans htb.symm, _, htt, hut⟩

end Sys2Proof.Machine

/-! SUPPORT. The LCD bus: the pairs each transmission puts on it (R153), and what a transmission adds to the trace while the timer
agent may act. -/

namespace Sys2Proof.Machine

/-! ### The bus trace of each transmission -/

/-- Where the nine pins are distinct, no two lines of the display share one. -/
structure DistinctLines (c : Cfg) : Prop where
  rs_strb : c.pinRs ≠ c.pinStrb
  rs_data : c.pinRs ≠ c.pinD0 ∧ c.pinRs ≠ c.pinD1 ∧ c.pinRs ≠ c.pinD2 ∧ c.pinRs ≠ c.pinD3
  strb_data : c.pinStrb ≠ c.pinD0 ∧ c.pinStrb ≠ c.pinD1 ∧ c.pinStrb ≠ c.pinD2 ∧ c.pinStrb ≠ c.pinD3
  data : c.pinD0 ≠ c.pinD1 ∧ c.pinD0 ≠ c.pinD2 ∧ c.pinD0 ≠ c.pinD3 ∧ c.pinD1 ≠ c.pinD2 ∧ c.pinD1 ≠ c.pinD3 ∧
    c.pinD2 ≠ c.pinD3

theorem distinctLines {c : Cfg} (hc : c.Valid) : DistinctLines c := by
  have hnodup := hc.pins
  simp only [Cfg.pins, List.nodup_cons, List.mem_cons, not_or] at hnodup
  constructor <;> tauto

/-- The latches with a nibble on the four data lines. -/
def withNibble (c : Cfg) (l : Word) (n : Nibble) : Word :=
  latchWith (latchWith (latchWith (latchWith l c.pinD0 (levelOf (n.getLsbD 0))) c.pinD1 (levelOf (n.getLsbD 1)))
    c.pinD2 (levelOf (n.getLsbD 2))) c.pinD3 (levelOf (n.getLsbD 3))

theorem latchAfter_strobe {c : Cfg} (hc : c.gpsetOff ≠ c.gpclrOff) (l : Word) :
    latchAfter c l (strobeEvents c) = latchWith (latchWith l c.pinStrb .high) c.pinStrb .low := by
  simp only [strobeEvents, latchAfter_cons, latchAfter_nil, pinEvent_latch hc]
  rfl

/-- The line just written carries the level written. -/
theorem levelOf_latchWith (l : Word) (p : Pin) (v : Level) : levelOf ((latchWith l p v).getLsbD p.val) = v := by
  rw [latchWith_pin, if_pos rfl]
  cases v <;> rfl

section valid

variable {c : Cfg} (hc : c.Valid)
include hc

theorem latchAfter_nibble (l : Word) (n : Nibble) : latchAfter c l (nibbleEvents c n) = withNibble c l n := by
  simp [nibbleEvents, withNibble, pinEvent_latch (gpset_ne_gpclr hc)]

theorem busTrace_nibble (l : Word) (n : Nibble) : busTrace c l (nibbleEvents c n) = [] := by
  obtain ⟨h0, h1, h2, h3⟩ := (distinctLines hc).strb_data
  have hoff := gpset_ne_gpclr hc
  rw [nibbleEvents, busTrace_quiet hoff h0, busTrace_quiet hoff h1, busTrace_quiet hoff h2, busTrace_quiet hoff h3, busTrace]

/-- The lines while the strobe is high after a nibble: the register-select latch as it was, and the nibble (R113, R151). -/
theorem linesOf_withNibble (l : Word) (n : Nibble) :
    linesOf c (latchWith (withNibble c l n) c.pinStrb .high) = (levelOf (l.getLsbD c.pinRs.val), n) := by
  obtain ⟨hrs, ⟨r0, r1, r2, r3⟩, ⟨s0, s1, s2, s3⟩, ⟨d01, d02, d03, d12, d13, d23⟩⟩ := distinctLines hc
  have hlevel : ∀ b : Bool, levelBit (levelOf b) = b := by decide
  have hbits : ∀ n : Nibble, BitVec.ofBool (n.getLsbD 3) ++ BitVec.ofBool (n.getLsbD 2) ++ BitVec.ofBool (n.getLsbD 1) ++
      BitVec.ofBool (n.getLsbD 0) = n := by decide
  simp only [linesOf, withNibble, latchWith_pin, hrs, r0, r1, r2, r3, s0.symm, s1.symm, s2.symm, s3.symm, d01, d02, d03, d12,
    d13, d23, if_true, if_false, hlevel]
  exact congrArg (levelOf (l.getLsbD c.pinRs.val), ·) (hbits n)

/-- A nibble and its strobe put one pair on the bus, with the register-select level that is on the line. -/
theorem busTrace_nibble_strobe (l : Word) (n : Nibble) :
    busTrace c l (nibbleEvents c n ++ strobeEvents c) = [(levelOf (l.getLsbD c.pinRs.val), n)] := by
  rw [busTrace_append, busTrace_nibble hc, latchAfter_nibble hc, busTrace_strobe (gpset_ne_gpclr hc), linesOf_withNibble hc,
    List.nil_append]

/-- A nibble and its strobe leave the register-select latch. -/
theorem latchAfter_nibble_strobe_rs (l : Word) (n : Nibble) :
    (latchAfter c l (nibbleEvents c n ++ strobeEvents c)).getLsbD c.pinRs.val = l.getLsbD c.pinRs.val := by
  obtain ⟨hrs, ⟨r0, r1, r2, r3⟩, -, -⟩ := distinctLines hc
  rw [latchAfter_append, latchAfter_nibble hc, latchAfter_strobe (gpset_ne_gpclr hc)]
  simp only [withNibble, latchWith_pin, hrs, r0, r1, r2, r3, if_false]

/-- The write of the register-select line puts nothing on the bus. -/
theorem busTrace_rs (l : Word) (rs : Level) (es : List Event) :
    busTrace c l (pinEvent c c.pinRs rs :: es) = busTrace c (latchWith l c.pinRs rs) es :=
  busTrace_quiet (gpset_ne_gpclr hc) (distinctLines hc).rs_strb.symm rs l es

/-- `send_byte` puts two pairs on the bus, high nibble first (R156). -/
theorem busTrace_byteEvents (l : Word) (rs : Level) (b : Byte) : busTrace c l (byteEvents c rs b) = bytePairs rs b := by
  have hsplit : byteEvents c rs b = pinEvent c c.pinRs rs ::
      ((nibbleEvents c (highNibble b) ++ strobeEvents c) ++ (nibbleEvents c (lowNibble b) ++ strobeEvents c)) := by
    simp [byteEvents]
  rw [hsplit, busTrace_rs hc, busTrace_append, busTrace_nibble_strobe hc, busTrace_nibble_strobe hc,
    latchAfter_nibble_strobe_rs hc, levelOf_latchWith]
  rfl

/-- `put4cmd` puts one pair on the bus (R157). -/
theorem busTrace_put4cmdEvents (l : Word) (n : Nibble) : busTrace c l (put4cmdEvents c n) = [(.low, n)] := by
  rw [put4cmdEvents, List.cons_append, busTrace_rs hc, busTrace_nibble_strobe hc, levelOf_latchWith]

theorem busTrace_functionSetEvents (l : Word) : busTrace c l (functionSetEvents c) = [(.low, 0x3)] := by
  rw [functionSetEvents, busTrace_append, busTrace_put4cmdEvents hc]
  simp [busTrace, latchStep, strobeFalls]

/-- The pairs of LCD_INIT, from any latches (R160, vectors L3 and L4). -/
theorem busTrace_initEvents (l : Word) : busTrace c l (initEvents c) = initPairs c.lcdRows := by
  have hlines : ∀ l, busTrace c l (if 1 < c.lcdRows then byteEvents c .low 0x28 else []) =
      if 1 < c.lcdRows then bytePairs .low 0x28 else [] := fun l => by
    split
    · exact busTrace_byteEvents hc l .low 0x28
    · rfl
  simp only [initEvents, busTrace_append, busTrace_functionSetEvents hc, busTrace_put4cmdEvents hc, busTrace_byteEvents hc,
    hlines]
  rfl

end valid

/-! ### Counting register writes -/

theorem writeCount_append (a b : List Event) : writeCount (a ++ b) = writeCount a + writeCount b := List.countP_append

theorem writeCount_pinEvent_cons (c : Cfg) (p : Pin) (l : Level) (es : List Event) :
    writeCount (pinEvent c p l :: es) = writeCount es + 1 := by
  cases l <;> simp [writeCount, pinEvent]

theorem writeCount_nibbleEvents (c : Cfg) (n : Nibble) : writeCount (nibbleEvents c n) = 4 := by
  simp only [nibbleEvents, writeCount_pinEvent_cons]
  rfl

theorem writeCount_strobeEvents (c : Cfg) : writeCount (strobeEvents c) = 2 := rfl

theorem writeCount_byteEvents (c : Cfg) (rs : Level) (b : Byte) : writeCount (byteEvents c rs b) = 13 := by
  simp only [byteEvents, List.cons_append, writeCount_pinEvent_cons, writeCount_append, writeCount_nibbleEvents,
    writeCount_strobeEvents]

theorem writeCount_put4cmdEvents (c : Cfg) (n : Nibble) : writeCount (put4cmdEvents c n) = 7 := by
  simp only [put4cmdEvents, List.cons_append, writeCount_pinEvent_cons, writeCount_append, writeCount_nibbleEvents,
    writeCount_strobeEvents]

theorem writeCount_functionSetEvents (c : Cfg) : writeCount (functionSetEvents c) = 7 := by
  rw [functionSetEvents, writeCount_append, writeCount_put4cmdEvents]
  rfl

/-- LCD_INIT makes 119 register writes for two rows, 106 for one (vectors L3 and L4). -/
theorem writeCount_initEvents (c : Cfg) : writeCount (initEvents c) = if 1 < c.lcdRows then 119 else 106 := by
  simp only [initEvents, writeCount_append, writeCount_functionSetEvents, writeCount_put4cmdEvents, writeCount_byteEvents]
  split
  · rw [writeCount_byteEvents]
  · rfl

theorem length_initPairs (rows : Nat) : (initPairs rows).length = if 1 < rows then 18 else 16 := by
  unfold initPairs
  split <;> rfl

/-! ### The timer agent's steps in between -/

/-- The timer agent's steps put nothing on the bus (R153, R159). -/
theorem busTrace_visible (c : Cfg) (l : Word) (es : List Event) : busTrace c l (visible es) = busTrace c l es := by
  induction es generalizing l with
  | nil => rfl
  | cons e es ih =>
    cases e with
    | expiry => simpa [visible, busTrace, latchStep, strobeFalls] using ih l
    | write o v => simp only [visible_write, busTrace, ih]
    | read o v => simp only [visible_read, busTrace, ih]
    | delay t => simp only [visible_delay, busTrace, ih]
    | fault f => simp only [visible_fault, busTrace, ih]

theorem writeCount_visible (es : List Event) : writeCount (visible es) = writeCount es := by
  rw [writeCount, visible, List.countP_filter, writeCount]
  refine List.countP_congr fun e _ => ?_
  cases e <;> simp

/-- An operation only adds to the trace. -/
theorem gapWith_extends (a : Nat) (m : Bool) (s : State) : s.trace <+: (gapWith a m s).trace := by
  rcases gapWith_cases a m s with ⟨-, -, h⟩ | ⟨-, -, -, -, h⟩ <;> simp [h]

theorem regWrite_extends (r : WriteReq) (v : Word) (s : State) : s.trace <+: (regWrite r v s).trace := by
  rw [regWrite, emit_trace, store_trace]
  exact (gapWith_extends 0 false s).trans (List.prefix_append _ _)

theorem pinWrite_extends (p : Pin) (l : Level) (s : State) : s.trace <+: (pinWrite p l s).trace := by
  cases l <;> exact regWrite_extends _ _ s

theorem delay_extends (t : Nat) (s : State) : s.trace <+: (delay t s).trace := by
  rw [delay, emit_trace]
  exact (gapWith_extends t false s).trans (List.prefix_append _ _)

theorem emitNibble_extends (n : Nibble) (s : State) : s.trace <+: (emitNibble n s).trace :=
  ((pinWrite_extends _ _ s).trans (pinWrite_extends _ _ _)).trans ((pinWrite_extends _ _ _).trans (pinWrite_extends _ _ _))

theorem strobe_extends (s : State) : s.trace <+: (strobe s).trace :=
  ((pinWrite_extends _ _ s).trans (delay_extends _ _)).trans ((pinWrite_extends _ _ _).trans (delay_extends _ _))

theorem put4cmd_extends (n : Nibble) (s : State) : s.trace <+: (put4cmd n s).trace :=
  ((pinWrite_extends _ _ s).trans (emitNibble_extends _ _)).trans (strobe_extends _)

theorem sendByte_extends (rs : Level) (b : Byte) (s : State) : s.trace <+: (sendByte rs b s).trace :=
  (((pinWrite_extends _ _ s).trans (emitNibble_extends _ _)).trans (strobe_extends _)).trans
    ((emitNibble_extends _ _).trans (strobe_extends _))

/-- What a transmission adds to the trace, the timer in any state: its own events with the agent's steps between them, which
neither the count of writes nor the bus can tell. -/
theorem added_of_transmits {s t : State} {es : List Event} (h : Transmits s t es) (hext : s.trace <+: t.trace) :
    ∃ fs, t.trace = s.trace ++ fs ∧ visible fs = es ∧ writeCount fs = writeCount es ∧
      busTrace s.cfg s.latch fs = busTrace s.cfg s.latch es := by
  obtain ⟨fs, hfs⟩ := hext
  have hvisible : visible fs = es := by
    have hv := h.visible
    rw [← hfs, visible_append] at hv
    exact List.append_cancel_left hv
  exact ⟨fs, hfs.symm, hvisible, by rw [← hvisible, writeCount_visible], by rw [← hvisible, busTrace_visible]⟩

/-- Settles O40: a byte is a transmission, and the agent's steps in between are seen neither on the bus nor in the latches. -/
theorem sendByte_adds_two_pairs : Obligations.SendByte := by
  intro s rs b hc
  have hsend := transmits_sendByte rs b s
  obtain ⟨es, htrace, hvisible, hcount, hbus⟩ := added_of_transmits hsend (sendByte_extends rs b s)
  exact ⟨_, es, rfl, htrace, hvisible, hcount.trans (writeCount_byteEvents _ _ _),
    hbus.trans (busTrace_byteEvents hc _ rs b), hsend.latch (gpset_ne_gpclr hc), blockPart_of_registers hsend.same⟩

/-- Settles O41: the same for the half-byte write of a command. -/
theorem put4cmd_adds_one_pair : Obligations.Put4cmd := by
  intro s n hc
  have hput := transmits_put4cmd n s
  obtain ⟨es, htrace, hvisible, hcount, hbus⟩ := added_of_transmits hput (put4cmd_extends n s)
  exact ⟨_, es, rfl, htrace, hvisible, hcount.trans (writeCount_put4cmdEvents _ _),
    hbus.trans (busTrace_put4cmdEvents hc _ n), hput.latch (gpset_ne_gpclr hc), blockPart_of_registers hput.same⟩

/-- Settles O59: an output pin's level is its latch (R25). -/
theorem lcdLinesAreTheLatches : Obligations.LcdLinesAreTheLatches := by
  intro s hout
  have hline : ∀ p ∈ s.cfg.pins.take 6, pinLevel s p = s.latch.getLsbD p.val := fun p hp => pinLevel_output (hout p hp)
  simp only [Cfg.pins, List.take_succ_cons, List.take_zero, List.forall_mem_cons] at hline
  obtain ⟨hrs, hstrb, h0, h1, h2, h3, -⟩ := hline
  exact ⟨by rw [lcdLines, hrs, h0, h1, h2, h3, linesOf], hstrb⟩

end Sys2Proof.Machine

/-! SUPPORT. The statements on the LCD commands, from the whole effect of a command (`exec_effect`, `exec_eventsOf`). -/

namespace Sys2Proof.Machine

/-! ### The checks of an LCD command -/

/-- The two faults of the LCD commands other than LCD_INIT: the mapping first, then the display (R150). -/
theorem lcdGuarded_of_checks {i : Instr} {s : State} (hi : checksOf i s = lcdChecks s) (hrun : s.status = .running)
    (hd : s.timerArmed = false) : LcdGuarded i s := by
  refine ⟨fun hacq => ?_, fun hacq hmode => ?_⟩
  · exact exec_faulting hrun hd (f := .notAcquired) (by simp [hi, lcdChecks, firstFault, hacq])
  · exact exec_faulting hrun hd (f := .lcdNotInitialized) (by simp [hi, lcdChecks, firstFault, hacq, hmode])

/-- An LCD command on a mapped and configured block completes with its registers and its events. -/
theorem exec_lcdCommand {i : Instr} {s : State} (hi : checksOf i s = lcdChecks s) (hreads : readsPins i = false)
    (hrun : s.status = .running) (hd : s.timerArmed = false) (hc : s.cfg.Valid) (hacq : s.acquired = true)
    (hmode : s.lcdMode = .configured) :
    ∃ t, exec i s = .next t ∧
      blockPart t = blockPart { completed t s i with latch := latchAfter s.cfg s.latch (eventsOf i s) } ∧
      t.trace = s.trace ++ eventsOf i s :=
  exec_eventsOf hrun hd hc hreads (hi ▸ firstFault_lcdChecks hacq hmode)

/-! ### The bytes of POSITION and PUT_CHAR -/

/-- The set-address byte as R114 writes it for the two rows. -/
theorem setAddress_eq (x y : Nat) : setAddress x y = BitVec.ofNat 8 ((if y = 0 then 0x80 else 0xC0) + x) := by
  have hrow : lcdDgram ||| rowOff y = BitVec.ofNat 8 (if y = 0 then 0x80 else 0xC0) := by
    unfold rowOff
    split <;> rfl
  rw [setAddress, hrow, ← BitVec.ofNat_add, Nat.add_comm]

theorem setAddress_column_zero (y : Nat) : setAddress 0 y = if y = 0 then 0x80 else 0xC0 := by
  rw [setAddress_eq]
  split <;> rfl

theorem nextCursor_wraps {c : Cfg} {cx : Nat} (cy : Nat) (h : cx + 1 = c.lcdCols) :
    nextCursor c cx cy = (0, if cy + 1 = c.lcdRows then 0 else cy + 1) := if_pos h

theorem nextCursor_stays {c : Cfg} {cx : Nat} (cy : Nat) (h : cx + 1 ≠ c.lcdCols) :
    nextCursor c cx cy = (cx + 1, cy) := if_neg h

theorem putCharEvents_stays {c : Cfg} {cx : Nat} (cy : Nat) (b : Byte) (h : cx + 1 ≠ c.lcdCols) :
    putCharEvents c cx cy b = byteEvents c .high b := by
  rw [putCharEvents, if_neg h, List.append_nil]

theorem putCharEvents_wraps {c : Cfg} {cx : Nat} (cy : Nat) (b : Byte) (h : cx + 1 = c.lcdCols) :
    putCharEvents c cx cy b = byteEvents c .high b ++
      byteEvents c .low (if (if cy + 1 = c.lcdRows then 0 else cy + 1) = 0 then 0x80 else 0xC0) := by
  rw [putCharEvents, if_pos h, nextCursor_wraps cy h, setAddress_column_zero]

/-! ### The display-control register -/

theorem setCtlBit_getLsbD (ctl : BitVec 3) (v : Bool) {bit j : Nat} (hbit : bit < 3) (hj : j < 3) :
    (setCtlBit ctl bit v).getLsbD j = if j = bit then v else ctl.getLsbD j := by
  have hmask : (1#3 <<< bit).getLsbD j = decide (j = bit) := by interval_cases bit <;> interval_cases j <;> rfl
  have hset : setCtlBit ctl bit true = ctl ||| 1#3 <<< bit := rfl
  have hclr : setCtlBit ctl bit false = ctl &&& ~~~(1#3 <<< bit) := rfl
  cases v with
  | true => rw [hset, BitVec.getLsbD_or, hmask]; by_cases h : j = bit <;> simp [h]
  | false => rw [hclr, BitVec.getLsbD_and, BitVec.getLsbD_not, hmask]; by_cases h : j = bit <;> simp [h, hj]

/-- The three display-control commands are one, at bit 2, 1 and 0 of `ctl` (R166 to R169). -/
theorem displayControl_shape {i : Instr} {v : Bool} {bit : Nat} (s : State)
    (hi : i = .lcdDisplay v ∧ bit = 2 ∨ i = .lcdCursor v ∧ bit = 1 ∨ i = .lcdBlink v ∧ bit = 0) :
    bit < 3 ∧ checksOf i s = lcdChecks s ∧ readsPins i = false ∧
      (∀ t, completed t s i = advance { s with ctl := setCtlBit s.ctl bit v }) ∧
      eventsOf i s = byteEvents s.cfg .low (ctlByte (setCtlBit s.ctl bit v)) := by
  obtain ⟨rfl, rfl⟩ | ⟨rfl, rfl⟩ | ⟨rfl, rfl⟩ := hi <;> exact ⟨by decide, rfl, rfl, fun _ => rfl, rfl⟩

/-! ### The statements on one command -/

/-- Settles O34: the two checks, then one transmission. -/
theorem lcdCmdEffect : Obligations.LcdCmdEffect := fun _ _ hrun hd hc =>
  ⟨lcdGuarded_of_checks rfl hrun hd, exec_lcdCommand rfl rfl hrun hd hc⟩

/-- Settles O35: the cursor wraps at the column count, and the wrap is what sends the second byte. -/
theorem putCharEffect : Obligations.PutCharEffect := by
  intro s b hrun hd hc
  have heffect := exec_lcdCommand (i := .putChar b) rfl rfl hrun hd hc
  refine ⟨lcdGuarded_of_checks rfl hrun hd, fun hacq hmode hstays => ?_, fun hacq hmode hwraps => ?_⟩
  · obtain ⟨t, hexec, hblock, htrace⟩ := heffect hacq hmode
    simp only [completed, eventsOf, nextCursor_stays _ hstays, putCharEvents_stays _ _ hstays] at hblock htrace
    exact ⟨t, hexec, hblock, htrace⟩
  · obtain ⟨t, hexec, hblock, htrace⟩ := heffect hacq hmode
    simp only [completed, eventsOf, nextCursor_wraps _ hwraps, putCharEvents_wraps _ _ hwraps] at hblock htrace
    exact ⟨t, _, _, hexec, rfl, rfl, hblock, htrace⟩

/-- Settles O36: outside the geometry the body is nothing, inside it is one transmission and the cursor. -/
theorem positionEffect : Obligations.PositionEffect := by
  intro s x y hrun hd hc
  have heffect := exec_lcdCommand (i := .position x y) rfl rfl hrun hd hc
  refine ⟨lcdGuarded_of_checks rfl hrun hd, fun hacq hmode hout => ?_, fun hacq hmode hx hy => ?_⟩
  · have hgeo : inGeometry s.cfg x y = false := by
      simp only [inGeometry, Bool.and_eq_false_iff, decide_eq_false_iff_not, not_lt]
      exact hout
    obtain ⟨t, hexec, hblock, htrace⟩ := heffect hacq hmode
    simp only [completed, eventsOf, positionedCursor, positionEvents, hgeo, Bool.false_eq_true, if_false, latchAfter_nil,
      List.append_nil] at hblock htrace
    exact ⟨t, hexec, hblock, htrace⟩
  · have hgeo : inGeometry s.cfg x y = true := by simp [inGeometry, hx, hy]
    obtain ⟨t, hexec, hblock, htrace⟩ := heffect hacq hmode
    simp only [completed, eventsOf, positionedCursor, positionEvents, hgeo, if_true, setAddress_eq] at hblock htrace
    exact ⟨t, _, hexec, rfl, hblock, htrace⟩

/-- Settles O37: the two checks, then one transmission and the cursor at (0, 0). -/
theorem lcdClearEffect : Obligations.LcdClearEffect := fun _ hrun hd hc =>
  ⟨lcdGuarded_of_checks rfl hrun hd, exec_lcdCommand rfl rfl hrun hd hc⟩

/-- Settles O38: one bit of `ctl` is set, and the register sent as it then is. -/
theorem displayControlEffect : Obligations.DisplayControlEffect := by
  intro s v i bit hrun hd hc hi
  obtain ⟨hbit, hchecks, hreads, hcompleted, hevents⟩ := displayControl_shape s hi
  refine ⟨lcdGuarded_of_checks hchecks hrun hd, fun hacq hmode => ?_⟩
  obtain ⟨t, hexec, hblock, htrace⟩ := exec_lcdCommand hchecks hreads hrun hd hc hacq hmode
  rw [hcompleted, hevents] at hblock
  rw [hevents] at htrace
  have hctl : t.ctl = setCtlBit s.ctl bit v := congrArg (fun b : State => b.ctl) hblock
  rw [← hctl] at hblock htrace
  exact ⟨t, hexec, fun j hj => by rw [hctl, setCtlBit_getLsbD _ _ hbit hj], hblock, htrace⟩

/-- Settles O39: the checks in order, then the handshake's events, which LCD_INIT's stages leave one after the other. -/
theorem lcdInitEffect : Obligations.LcdInitEffect := by
  intro s hrun hd hoff
  refine ⟨fun hacq => ?_, fun hacq hbits => ?_, fun hacq hbits => ?_⟩
  · exact exec_faulting hrun hd (f := .notAcquired) (by simp [checksOf, firstFault, hacq])
  · exact exec_faulting hrun hd (f := .unsupportedConfiguration) (by simp [checksOf, firstFault, hacq, hbits])
  · have hpass : firstFault (checksOf .lcdInit s) = none := by simp [checksOf, firstFault, hacq, hbits]
    have hbody := (sends_init (gap s)).advance
    rw [gap_cfg] at hbody
    obtain ⟨t, hexec, hblock, htrace⟩ := exec_effect hrun hd hoff (by simp) hpass hbody
    exact ⟨t, hexec, hblock, htrace, writeCount_initEvents _, length_initPairs _, fun hc => busTrace_initEvents hc _⟩

/-! ### The cursor after a run of characters -/

/-- The display can be written to: what the LCD commands check, in a running block. -/
structure DisplayReady (s : State) : Prop where
  running : s.status = .running
  acquired : s.acquired = true
  configured : s.lcdMode = .configured

/-- The commands PRINT is made of (R171, R172). -/
inductive PrintCommand : Instr → Prop where
  | position (x y : Nat) : PrintCommand (.position x y)
  | putChar (b : Byte) : PrintCommand (.putChar b)
  | delay (n : Nat) : PrintCommand (.delay n)

/-- Such a command completes while the display can be written to, the timer in any state, and leaves it so. -/
theorem DisplayReady.exec {s : State} (hs : DisplayReady s) {i : Instr} (hi : PrintCommand i) :
    ∃ t, Machine.exec i s = .next t ∧ DisplayReady t ∧ SameRegisters t (completed t s i) := by
  have hpass : firstFault (checksOf i s) = none := by
    cases hi with
    | position x y => exact firstFault_lcdChecks hs.acquired hs.configured
    | putChar b => exact firstFault_lcdChecks hs.acquired hs.configured
    | delay n => rfl
  have hsame := sameRegisters_of_eq ((registers_bodyOf i (gap s)).trans (registers_completed_gap _ s i))
  refine ⟨_, exec_passing hs.running hpass, ?_, hsame⟩
  have hkept : ∀ t, DisplayReady (completed t s i) := fun t => by
    cases hi <;> exact ⟨hs.running, hs.acquired, hs.configured⟩
  obtain ⟨hrun, hacq, hconf⟩ := hkept (bodyOf i (gap s))
  exact ⟨hsame.status.trans hrun, hsame.acquired.trans hacq, hsame.lcdMode.trans hconf⟩

/-- A list of such commands completes. -/
theorem DisplayReady.execAll {is : List Instr} (his : ∀ i ∈ is, PrintCommand i) {s : State} (hs : DisplayReady s) :
    ∃ t, Machine.execAll is s = .next t ∧ DisplayReady t ∧ t.cfg = s.cfg := by
  induction is generalizing s with
  | nil => exact ⟨s, rfl, hs, rfl⟩
  | cons i is ih =>
    obtain ⟨hi, his⟩ := List.forall_mem_cons.mp his
    obtain ⟨t, hexec, ht, hsame⟩ := hs.exec hi
    obtain ⟨u, hrest, hu, hcfg⟩ := ih his ht
    exact ⟨u, (execAll_cons hexec).trans hrest, hu, by rw [hcfg, hsame.cfg, completed_cfg]⟩

/-- One list of commands after another. -/
theorem execAll_append {is js : List Instr} {s t : State} (h : execAll is s = .next t) :
    execAll (is ++ js) s = execAll js t := by
  induction is generalizing s with
  | nil => cases h; rfl
  | cons i is ih =>
    simp only [execAll, List.cons_append] at h ⊢
    split at h
    · exact ih h
    · cases h
    · cases h

/-- The next cursor in R174's form: inside the geometry, one place further along the line, then along the rows. -/
theorem nextCursor_eq {c : Cfg} {cx cy : Nat} (hx : cx < c.lcdCols) (hy : cy < c.lcdRows) :
    nextCursor c cx cy = ((cx + 1) % c.lcdCols, (cy + (cx + 1) / c.lcdCols) % c.lcdRows) := by
  by_cases hwrap : cx + 1 = c.lcdCols
  · rw [nextCursor_wraps cy hwrap, hwrap, Nat.mod_self, Nat.div_self (by omega)]
    split
    · next hlast => rw [hlast, Nat.mod_self]
    · rw [Nat.mod_eq_of_lt (by omega)]
  · rw [nextCursor_stays cy hwrap, Nat.mod_eq_of_lt (by omega), Nat.div_eq_of_lt (by omega), Nat.add_zero cy,
      Nat.mod_eq_of_lt hy]

/-- `n` places further along the lines, one place at a time (R174). -/
theorem column_carry (cols x n : Nat) (hcols : 0 < cols) : (x % cols + n) % cols = (x + n) % cols ∧
    x / cols + (x % cols + n) / cols = (x + n) / cols := by
  refine ⟨Nat.mod_add_mod x cols n, ?_⟩
  conv_rhs => rw [← Nat.div_add_mod x cols, Nat.add_assoc, Nat.mul_add_div hcols]

/-- Characters written from any cursor inside the geometry (R163, R174). -/
theorem execAll_putChars {s : State} (m : List Byte) (hs : DisplayReady s) (hx : s.cx < s.cfg.lcdCols)
    (hy : s.cy < s.cfg.lcdRows) :
    ∃ t, execAll (m.map .putChar) s = .next t ∧ t.cx = (s.cx + m.length) % s.cfg.lcdCols ∧
      t.cy = (s.cy + (s.cx + m.length) / s.cfg.lcdCols) % s.cfg.lcdRows := by
  induction m generalizing s with
  | nil =>
    refine ⟨s, rfl, ?_, ?_⟩
    · exact (Nat.mod_eq_of_lt hx).symm
    · simp [Nat.div_eq_of_lt hx, Nat.mod_eq_of_lt hy]
  | cons b m ih =>
    obtain ⟨t, hexec, ht, hsame⟩ := hs.exec (.putChar b)
    have hcfg : t.cfg = s.cfg := hsame.cfg
    have hcols : 0 < s.cfg.lcdCols := by omega
    have hcursor := nextCursor_eq hx hy
    have htx : t.cx = (s.cx + 1) % s.cfg.lcdCols := hsame.cx.trans (congrArg Prod.fst hcursor)
    have hty : t.cy = (s.cy + (s.cx + 1) / s.cfg.lcdCols) % s.cfg.lcdRows := hsame.cy.trans (congrArg Prod.snd hcursor)
    obtain ⟨u, hrest, hux, huy⟩ := ih ht (by rw [htx, hcfg]; exact Nat.mod_lt _ hcols)
      (by rw [hty, hcfg]; exact Nat.mod_lt _ (by omega))
    obtain ⟨hcol, hrow⟩ := column_carry s.cfg.lcdCols (s.cx + 1) m.length hcols
    have hlen : s.cx + 1 + m.length = s.cx + (b :: m).length := by simp only [List.length_cons]; omega
    refine ⟨u, (execAll_cons hexec).trans hrest, ?_, ?_⟩
    · rw [hux, htx, hcfg, hcol, hlen]
    · rw [huy, htx, hty, hcfg, Nat.mod_add_mod, Nat.add_assoc, hrow, hlen]

/-- Settles O42: the run of characters from (0, 0). -/
theorem cursorWrap : Obligations.CursorWrap := by
  intro s m hrun hacq hmode hc hx hy
  obtain ⟨t, hexec, htx, hty⟩ := execAll_putChars m ⟨hrun, hacq, hmode⟩ (hx ▸ hc.cols.1) (hy ▸ hc.rows.1)
  rw [hx, Nat.zero_add] at htx hty
  rw [hy, Nat.zero_add] at hty
  exact ⟨t, hexec, htx, hty⟩

/-! ### PRINT -/

/-- A frame on a row of the display: the cursor counts on from column 0 of that row (R171, R172). -/
theorem execAll_printFrame {s : State} {row : Nat} (window : List Byte) (hs : DisplayReady s) (hc : s.cfg.Valid)
    (hrow : row < s.cfg.lcdRows) :
    ∃ t, execAll (printFrame row window) s = .next t ∧ t.cx = window.length % s.cfg.lcdCols ∧
      t.cy = (row + window.length / s.cfg.lcdCols) % s.cfg.lcdRows := by
  have hcols : 0 < s.cfg.lcdCols := hc.cols.1
  have hgeo : inGeometry s.cfg 0 row = true := by simp [inGeometry, hcols, hrow]
  obtain ⟨t, hexec, ht, hsame⟩ := hs.exec (.position 0 row)
  have hcfg : t.cfg = s.cfg := hsame.cfg
  have hcursor : positionedCursor s.cfg 0 row s.cx s.cy = (0, row) := by simp [positionedCursor, hgeo]
  have htx : t.cx = 0 := hsame.cx.trans (congrArg Prod.fst hcursor)
  have hty : t.cy = row := hsame.cy.trans (congrArg Prod.snd hcursor)
  obtain ⟨u, hrest, hux, huy⟩ := execAll_putChars window ht (by rwa [htx, hcfg]) (by rwa [hty, hcfg])
  rw [htx, Nat.zero_add, hcfg] at hux huy
  rw [hty] at huy
  exact ⟨u, (execAll_cons hexec).trans hrest, hux, huy⟩

/-- A frame before the last is followed by the pause (R172). -/
theorem printScrollFrame_of_lt {c : Cfg} {m : List Byte} (row : Nat) {k : Nat} (h : k < m.length - c.lcdCols) :
    printScrollFrame c m row k = printFrame row ((m.drop k).take c.lcdCols) ++ [.delay c.tScroll] := by
  rw [printScrollFrame, if_pos h]

/-- The last frame is the message's tail, with no pause after it (R172). -/
theorem printScrollFrame_last {c : Cfg} {m : List Byte} (row : Nat) (h : c.lcdCols < m.length) :
    printScrollFrame c m row (m.length - c.lcdCols) = printFrame row (m.drop (m.length - c.lcdCols)) := by
  have htail : (m.drop (m.length - c.lcdCols)).take c.lcdCols = m.drop (m.length - c.lcdCols) :=
    List.take_of_length_le (by rw [List.length_drop]; omega)
  rw [printScrollFrame, htail, if_neg (Nat.lt_irrefl _), List.append_nil]

theorem expandPrint_frames {c : Cfg} {m : List Byte} (row : Nat) (h : c.lcdCols < m.length) :
    expandPrint c m row = (List.range (m.length - c.lcdCols + 1)).flatMap (printScrollFrame c m row) :=
  if_neg (Nat.not_le.mpr h)

/-- All frames of a message that does not fit but the last, then the last. -/
theorem expandPrint_scrolling {c : Cfg} {m : List Byte} (row : Nat) (h : c.lcdCols < m.length) :
    expandPrint c m row = (List.range (m.length - c.lcdCols)).flatMap (printScrollFrame c m row) ++
      printFrame row (m.drop (m.length - c.lcdCols)) := by
  rw [expandPrint_frames row h, List.range_succ, List.flatMap_append, List.flatMap_singleton, printScrollFrame_last row h]

theorem printCommand_of_mem_printFrame {row : Nat} {window : List Byte} {i : Instr} (h : i ∈ printFrame row window) :
    PrintCommand i := by
  simp only [printFrame, List.mem_cons, List.mem_map] at h
  obtain rfl | ⟨b, -, rfl⟩ := h
  · exact .position 0 row
  · exact .putChar b

theorem printCommand_of_mem_printScrollFrame {c : Cfg} {m : List Byte} {row k : Nat} {i : Instr}
    (h : i ∈ printScrollFrame c m row k) : PrintCommand i := by
  rw [printScrollFrame, List.mem_append] at h
  obtain hframe | hpause := h
  · exact printCommand_of_mem_printFrame hframe
  · split at hpause
    · obtain rfl := List.mem_singleton.mp hpause
      exact .delay _
    · simp at hpause

/-- Settles O44: the frames before the last complete, and the last is the only one that decides the cursor. -/
theorem printCursor : Obligations.PrintCursor := by
  intro s m row hrun hacq hmode hc hrow
  have hs : DisplayReady s := ⟨hrun, hacq, hmode⟩
  have hcols : 0 < s.cfg.lcdCols := hc.cols.1
  by_cases hfits : m.length ≤ s.cfg.lcdCols
  · obtain ⟨t, hexec, htx, hty⟩ := execAll_printFrame m hs hc hrow
    refine ⟨t, by rw [expandPrint, if_pos hfits, hexec], fun hlt => ?_, fun hle => ?_⟩
    · rw [htx, hty, Nat.mod_eq_of_lt hlt, Nat.div_eq_of_lt hlt]
      exact ⟨rfl, Nat.mod_eq_of_lt hrow⟩
    · rw [htx, hty, le_antisymm hfits hle, Nat.mod_self, Nat.div_self hcols]
      exact ⟨rfl, rfl⟩
  · have hlong : s.cfg.lcdCols < m.length := Nat.not_le.mp hfits
    have hlast : (m.drop (m.length - s.cfg.lcdCols)).length = s.cfg.lcdCols := by rw [List.length_drop]; omega
    obtain ⟨t, hframes, ht, hcfg⟩ := hs.execAll (is := (List.range (m.length - s.cfg.lcdCols)).flatMap
      (printScrollFrame s.cfg m row)) fun i hi => by
        obtain ⟨k, -, hk⟩ := List.mem_flatMap.mp hi
        exact printCommand_of_mem_printScrollFrame hk
    obtain ⟨u, hexec, hux, huy⟩ := execAll_printFrame (m.drop (m.length - s.cfg.lcdCols)) ht (hcfg ▸ hc) (hcfg ▸ hrow)
    rw [hcfg, hlast, Nat.mod_self] at hux
    rw [hcfg, hlast, Nat.div_self hcols] at huy
    refine ⟨u, ?_, fun hlt => absurd hlt (by omega), fun _ => ⟨hux, huy⟩⟩
    rw [expandPrint_scrolling row hlong, execAll_append hframes, hexec]

/-! ### Frame by frame -/

section frames

variable {α : Type} {g : Nat → List α} {n : Nat}

/-- Counting over frames that count alike. -/
theorem countP_flatMap_range {p : α → Bool} {v : Nat} (h : ∀ k < n, (g k).countP p = v) :
    ((List.range n).flatMap g).countP p = n * v := by
  induction n with
  | zero => simp
  | succ n ih =>
    rw [List.range_succ, List.flatMap_append, List.flatMap_singleton, List.countP_append, h n (Nat.lt_succ_self n),
      ih fun k hk => h k (Nat.lt_succ_of_lt hk), Nat.succ_mul]

theorem length_flatMap_range {w : Nat} (h : ∀ k < n, (g k).length = w) : ((List.range n).flatMap g).length = n * w := by
  rw [← List.countP_true]
  exact countP_flatMap_range fun k hk => by rw [List.countP_true, h k hk]

/-- Where all frames before the last have length `w`, frame `k` stands at offset `k * w`. -/
theorem frame_at_offset {w k : Nat} (h : ∀ j < n, (g j).length = w) (hlast : (g n).length ≤ w) (hk : k ≤ n) :
    (((List.range (n + 1)).flatMap g).drop (k * w)).take w = g k := by
  have hsplit : (List.range (n + 1)).flatMap g =
      (List.range k).flatMap g ++ (g k ++ (List.range' (k + 1) (n - k)).flatMap g) := by
    have hrange : List.range (n + 1) = List.range k ++ k :: List.range' (k + 1) (n - k) := by
      have hlength : k + (n - k + 1) = n + 1 := by omega
      rw [← List.range'_succ, List.range_eq_range', List.range_eq_range', ← hlength, ← List.range'_append_1, Nat.zero_add]
    rw [hrange, List.flatMap_append, List.flatMap_cons]
  have hbefore : ((List.range k).flatMap g).length = k * w :=
    length_flatMap_range fun j hj => h j (Nat.lt_of_lt_of_le hj hk)
  rw [hsplit, List.drop_left' hbefore]
  by_cases hkn : k = n
  · rw [hkn, Nat.sub_self, List.range'_zero, List.flatMap_nil, List.append_nil, List.take_of_length_le hlast]
  · exact List.take_left' (h k (by omega))

end frames

/-- A character of a frame, as `PrintExpansion` counts them. -/
def isPutChar : Instr → Bool
  | .putChar _ => true
  | _ => false

section counts

variable (row : Nat) (window : List Byte)

theorem length_printFrame : (printFrame row window).length = window.length + 1 := by simp [printFrame]

theorem count_position_printFrame : (printFrame row window).count (.position 0 row) = 1 := by
  have hnone : (window.map Instr.putChar).count (.position 0 row) = 0 := List.count_eq_zero.mpr (by simp)
  rw [printFrame, List.count_cons_self, hnone]

theorem countP_putChar_printFrame : (printFrame row window).countP isPutChar = window.length := by
  have hall : (window.map Instr.putChar).countP isPutChar = (window.map Instr.putChar).length :=
    List.countP_eq_length.mpr (by simp [isPutChar])
  rw [printFrame, List.countP_cons_of_neg (by simp [isPutChar]), hall, List.length_map]

theorem count_delay_printFrame (n : Nat) : (printFrame row window).count (.delay n) = 0 :=
  List.count_eq_zero.mpr (by simp [printFrame])

end counts

/-- A window of a message that does not fit is as long as the line (R172). -/
theorem length_window {c : Cfg} {m : List Byte} {k : Nat} (h : c.lcdCols < m.length) (hk : k ≤ m.length - c.lcdCols) :
    ((m.drop k).take c.lcdCols).length = c.lcdCols := by
  rw [List.length_take, List.length_drop]; omega

theorem length_tail {c : Cfg} {m : List Byte} (h : c.lcdCols < m.length) :
    (m.drop (m.length - c.lcdCols)).length = c.lcdCols := by
  rw [List.length_drop]; omega

/-- Settles O43: the frames before the last count alike, so the whole is their number times one frame's, and the last frame. -/
theorem printExpansion : Obligations.PrintExpansion := by
  intro c m row
  refine ⟨fun h => if_pos h, fun h => ?_⟩
  have hexp := expandPrint_scrolling row h
  have htail := length_tail h
  have hlength : ∀ k < m.length - c.lcdCols, (printScrollFrame c m row k).length = c.lcdCols + 2 := fun k hk => by
    rw [printScrollFrame_of_lt row hk, List.length_append, length_printFrame, length_window h hk.le, List.length_singleton]
  refine ⟨?_, fun k hk => ?_, ?_, ?_, ?_, _, hexp⟩
  · rw [hexp, List.length_append, length_flatMap_range hlength, length_printFrame, htail]
    ring
  · have hlast : (printScrollFrame c m row (m.length - c.lcdCols)).length ≤ c.lcdCols + 2 := by
      rw [printScrollFrame_last row h, length_printFrame, htail]; omega
    rw [expandPrint_frames row h, frame_at_offset hlength hlast hk]
    rfl
  · have hframe : ∀ k < m.length - c.lcdCols, (printScrollFrame c m row k).count (.position 0 row) = 1 := fun k hk => by
      rw [printScrollFrame_of_lt row hk, List.count_append, count_position_printFrame, List.count_singleton]
      rfl
    rw [hexp, List.count_append, count_position_printFrame, List.count_eq_countP, countP_flatMap_range hframe, Nat.mul_one]
  · have hframe : ∀ k < m.length - c.lcdCols, (printScrollFrame c m row k).countP isPutChar = c.lcdCols := fun k hk => by
      rw [printScrollFrame_of_lt row hk, List.countP_append, countP_putChar_printFrame, length_window h hk.le]
      rfl
    have hcount : (expandPrint c m row).countP isPutChar = (m.length - c.lcdCols + 1) * c.lcdCols := by
      rw [hexp, List.countP_append, countP_flatMap_range hframe, countP_putChar_printFrame, htail, Nat.succ_mul]
    exact hcount
  · have hframe : ∀ k < m.length - c.lcdCols, (printScrollFrame c m row k).count (.delay c.tScroll) = 1 := fun k hk => by
      rw [printScrollFrame_of_lt row hk, List.count_append, count_delay_printFrame, List.count_singleton_self]
    rw [hexp, List.count_append, count_delay_printFrame, List.count_eq_countP, countP_flatMap_range hframe, Nat.mul_one,
      Nat.add_zero]

end Sys2Proof.Machine

/-! SUPPORT. Timed input (42_timed_input): a run of the other agents as one gap, what a whole wait leaves (`Waited`), where its
expiry stands in the trace (`ExpiresLast`), a wait on scripted moves (`EndsBy`), and from that the statements on the family. -/

namespace Sys2Proof.Machine

/-! ### The timer agent and the gap -/

theorem timerAgent_unwilling (s : State) : timerAgent false s = s := by simp [timerAgent]

theorem timerAgent_of_enabled {s : State} (h : expiryEnabled s = true) : timerAgent true s = expiryStep s := by
  simp [timerAgent, h]

theorem timerAgent_of_not_enabled {s : State} (b : Bool) (h : expiryEnabled s = false) : timerAgent b s = s := by
  simp [timerAgent, h]

/-- Ticks and pin changes take no enabled expiry step away (R193). -/
theorem expiryEnabled_later {s : State} (n : Nat) (levels : Word) (h : expiryEnabled s = true) :
    expiryEnabled (pinChange levels (tick n s)) = true := by
  obtain ⟨harmed, hdue⟩ : s.timerArmed = true ∧ s.timerFireAt ≤ s.now := by simpa [expiryEnabled] using h
  simp [expiryEnabled, harmed, Nat.le_add_right_of_le hdue]

/-- An expiry step before ticks and pin changes leaves what one after them leaves, since the timer is one-shot (R193). -/
theorem timerAgent_pinChange_tick_expiryStep {s : State} (b : Bool) (n : Nat) (levels : Word) (h : expiryEnabled s = true) :
    timerAgent b (pinChange levels (tick n (expiryStep s))) = timerAgent true (pinChange levels (tick n s)) := by
  rw [timerAgent_of_enabled (expiryEnabled_later n levels h), timerAgent_disarmed b rfl]
  rfl

/-- Ticks add up, the last levels stay, and the one-shot timer expires once or not at all (log 2). -/
theorem runAgents_eq (steps : List AgentStep) (s : State) :
    ∃ (levels : Word) (fires : Bool),
      runAgents steps s = timerAgent fires (pinChange levels (tick (steps.count .tick) s)) := by
  induction steps generalizing s with
  | nil => exact ⟨s.extIn, false, (timerAgent_unwilling _).symm⟩
  | cons a steps ih =>
    obtain ⟨levels, fires, hrun⟩ := ih (agentStep s a)
    have hcons : runAgents (a :: steps) s = runAgents steps (agentStep s a) := rfl
    rw [hcons, hrun]
    cases a with
    | tick =>
      refine ⟨levels, fires, ?_⟩
      rw [List.count_cons_self, Nat.add_comm (steps.count .tick)]
      simp [agentStep, tick, Nat.add_assoc]
    | pins l =>
      refine ⟨levels, fires, ?_⟩
      rw [List.count_cons_of_ne (by simp)]
      rfl
    | expiry =>
      rw [List.count_cons_of_ne (by simp)]
      cases h : expiryEnabled s with
      | true => exact ⟨levels, true, by rw [agentStep, timerAgent_of_enabled h, timerAgent_pinChange_tick_expiryStep _ _ _ h]⟩
      | false => exact ⟨levels, fires, by rw [agentStep, timerAgent_of_not_enabled _ h]⟩

/-! ### The script of moves -/

/-- The state with a script of moves to come. -/
def withEnv (l : List EnvMove) (s : State) : State := { s with env := l }

theorem timerAgent_withEnv (b : Bool) (l : List EnvMove) (s : State) :
    timerAgent b (withEnv l s) = withEnv l (timerAgent b s) := by
  unfold timerAgent
  change (if expiryEnabled s && b then _ else _) = _
  split <;> rfl

/-- What the other agents do in one gap by the move `g`, which lasts at least `a` ticks (R190, R193). -/
def afterMove (a : Nat) (g : EnvMove) (s : State) : State :=
  timerAgent g.fires (pinChange g.pins (tick (max g.ticks a) s))

@[simp] theorem afterMove_timerFireAt (a : Nat) (g : EnvMove) (s : State) : (afterMove a g s).timerFireAt = s.timerFireAt := by
  simp [afterMove]

@[simp] theorem afterMove_now (a : Nat) (g : EnvMove) (s : State) : (afterMove a g s).now = s.now + max g.ticks a := by
  simp [afterMove]

/-- A move leaves the timer as it was, which it does not if the expiry is due and the agent willing, or it leaves the flag set. -/
theorem afterMove_cases (a : Nat) (g : EnvMove) (s : State) :
    ((afterMove a g s).timerExpired = s.timerExpired ∧ (afterMove a g s).timerArmed = s.timerArmed ∧
        ¬ (s.timerArmed = true ∧ g.fires = true ∧ s.timerFireAt ≤ s.now + max g.ticks a)) ∨
      (afterMove a g s).timerExpired = true := by
  unfold afterMove timerAgent
  split
  · exact .inr rfl
  · next hidle =>
    refine .inl ⟨rfl, rfl, fun ⟨harmed, hfires, hdue⟩ => hidle ?_⟩
    simp [expiryEnabled, harmed, hfires, hdue]

/-- A gap takes one move off the script. -/
theorem gapWith_withEnv (a : Nat) (g : EnvMove) (l : List EnvMove) (s : State) :
    gapWith a false (withEnv (g :: l) s) = withEnv l (afterMove a g s) := by
  rw [afterMove, ← timerAgent_withEnv]
  simp [gapWith, withEnv, nextMove, dropMove, pinChange, tick]

/-! ### The statements on the timer, the other agents and DELAY -/

/-- Settles O45: the timer agent acts exactly when the expiry step is enabled and it is willing. -/
theorem timerSteps : Obligations.TimerSteps := by
  refine fun s => ⟨rfl, fun harmed hdue => ?_, fun hnot => ?_, timerAgent_unwilling s⟩
  · exact timerAgent_of_enabled (by simp [expiryEnabled, harmed, hdue])
  · refine timerAgent_of_not_enabled true ?_
    rcases hnot with h | h
    · simp [expiryEnabled, h]
    · simp [expiryEnabled, Nat.not_le.mpr h]

/-- Settles O18: the run's ticks, its last levels and whether its timer expired are the move. -/
theorem gapCoversEveryAgentRun : Obligations.GapCoversEveryAgentRun := by
  intro s steps rest atLeast hlong
  obtain ⟨levels, fires, hrun⟩ := runAgents_eq steps s
  refine ⟨⟨steps.count .tick, levels, fires⟩, ?_⟩
  have hgap := gapWith_withEnv atLeast ⟨steps.count .tick, levels, fires⟩ rest s
  rwa [afterMove, Nat.max_eq_left hlong, ← hrun] at hgap

/-- Settles O50: DELAY has no check, and its body is the one delay. -/
theorem delayEffect : Obligations.DelayEffect := by
  intro s n hrun hd
  have hsends : Transmits s (delay (n * s.cfg.uHost) (gap s)) [.delay (n * s.cfg.uHost)] := (transmits_delay _ (gap s)).gapped
  obtain ⟨-, -, htrace⟩ := hsends.disarmed hd
  have hexec : exec (.delay n) s = .next (advance (delay (n * s.cfg.uHost) (gap s))) := by
    rw [exec_passing hrun rfl, bodyOf, gap_cfg]
  have hblock := hsends.blockPart_eq hd
  rw [delay_latch, gap_latch] at hblock
  exact ⟨_, hexec, congrArg advance hblock, htrace, by simpa [delayTicks] using hsends.now⟩

/-! ### The polls of a wait -/

/-- A wait is its loop from the start on, and then `resp` (R195). -/
theorem waitOn_eq (s : State) :
    waitOn s = { waitLoop (waitFuel (startWait s)) (startWait s) with
      resp := BitVec.ofNat 32 (waitLoop (waitFuel (startWait s)) (startWait s)).count } := rfl

theorem exec_waitInput {s : State} (hrun : s.status = .running) (hacq : s.acquired = true) :
    exec .waitInput s = .next (advance (waitOn (gap s))) :=
  exec_passing hrun (by simp [checksOf, firstFault, hacq])

/-- A wait that answers a next state on a mapped block is its loop. -/
theorem exec_waitInput_eq {s t : State} (hacq : s.acquired = true) (h : exec .waitInput s = .next t) :
    t = advance (waitOn (gap s)) := by
  rw [exec_waitInput (exec_cases h).1 hacq] at h
  cases h; rfl

/-- Arming with the gaps before it, from `s` with the timer disarmed to `u`: the trace is as it was, the deadline lies the full
time ahead (R192). -/
structure Starts (s u : State) : Prop where
  block : blockPart u = blockPart { s with
    prev := .low, count := 0, timerArmed := true, timerExpired := false, timerFireAt := u.timerFireAt }
  trace : u.trace = s.trace
  deadline : u.timerFireAt = u.now + s.cfg.tDeadline * s.cfg.uDeadline
  now : s.now ≤ u.now
  env : u.env = s.env.drop 2

theorem starts_startWait {s : State} (hd : s.timerArmed = false) : Starts s (startWait (gap s)) where
  block := by simp [blockPart, startWait]
  trace := by
    obtain ⟨harmed, -, htrace⟩ := gap_disarmed hd
    exact (gap_disarmed harmed).2.2.trans htrace
  deadline := by simp [startWait]
  now := (gap_now s).trans (gap_now (gap s))
  env := by simp [startWait, gap, ← List.drop_one]

/-- The fields a start leaves, one by one. -/
theorem Starts.rest {s u : State} (h : Starts s u) :
    u.cfg = s.cfg ∧ u.gpfsel = s.gpfsel ∧ u.latch = s.latch ∧ u.prev = .low ∧ u.count = 0 ∧ u.timerArmed = true ∧
      u.timerExpired = false := by
  have hs := h.block
  simp only [blockPart, State.mk.injEq, Block.mk.injEq] at hs
  tauto

/-- A word that has the latches at the output pins is what the level register holds with that word driven from outside (R25). -/
theorem gplev_of_outputs {s : State} {w : Word}
    (hw : ∀ p : Pin, field s p = selOutput → w.getLsbD p.val = s.latch.getLsbD p.val) : gplev { s with extIn := w } = w := by
  refine BitVec.eq_of_getLsbD_eq fun i hi => ?_
  have hbit := gplev_getLsbD { s with extIn := w } ⟨i, hi⟩
  rw [hbit]
  by_cases hout : field s ⟨i, hi⟩ = selOutput
  · rw [hw ⟨i, hi⟩ hout]; exact if_pos hout
  · exact if_neg hout

/-- What a whole wait leaves, from `s` to `t`, by its events `es` (R195 to R199). -/
structure Waited (s t : State) (es : List Event) : Prop where
  trace : t.trace = s.trace ++ es
  block : blockPart t = blockPart { s with
    prev := (polledLevels s.cfg s.cfg.pinButton es).getLastD .low
    count := presses .low (polledLevels s.cfg s.cfg.pinButton es)
    resp := BitVec.ofNat 32 (presses .low (polledLevels s.cfg s.cfg.pinButton es))
    timerExpired := true
    timerFireAt := t.timerFireAt
    cp := s.cp + 1 }
  deadline : s.now + s.cfg.tDeadline * s.cfg.uDeadline ≤ t.timerFireAt
  now : t.timerFireAt ≤ t.now
  expiry : es.count .expiry = 1
  delays : es.count (.delay (debounceTicks s.cfg)) = presses .low (polledLevels s.cfg s.cfg.pinButton es)
  kinds : ∀ e ∈ es, e = .expiry ∨ e = .delay (debounceTicks s.cfg) ∨
    ∃ pins, e = .read s.cfg.gplevOff (gplev { s with extIn := pins })
  script : pollEvents s 0 false .low false (s.env.drop 2) <+: es

theorem waited_waitOn {s : State} (hd : s.timerArmed = false) : ∃ es, Waited s (advance (waitOn (gap s))) es := by
  have hstart := starts_startWait hd
  rw [waitOn_eq]
  have hfuel : (startWait (gap s)).env.length ≤ waitFuel (startWait (gap s)) := Nat.le_add_left _ _
  generalize startWait (gap s) = u at hstart hfuel ⊢
  generalize waitFuel u = n at hfuel ⊢
  obtain ⟨hcfg, hgpfsel, hlatch, hprev, hcount, harmed, hexpired⟩ := hstart.rest
  have hflag : u.timerExpired = !u.timerArmed := by rw [harmed, hexpired]; rfl
  obtain ⟨es, hpolls, hdisarmed, hset⟩ := polls_waitLoop n u hflag
  obtain ⟨fs, hfs, hscript⟩ := waitLoop_pollEvents s n u 0 hcfg hgpfsel hlatch hflag
    (by rw [hstart.deadline, Nat.add_zero]) hfuel
  obtain rfl : es = fs := List.append_cancel_left (hpolls.trace.symm.trans hfs)
  have hpresses := hpolls.count
  have hlast := hpolls.prev
  have hdelays := hpolls.delays
  have hkinds := hpolls.kinds
  have hsame := hpolls.same
  obtain ⟨-, -, -, hfire⟩ := hpolls.rest
  rw [hcfg, hprev, hcount, Nat.zero_add] at hpresses
  rw [hcfg, hprev] at hlast hdelays
  rw [hcfg] at hkinds
  generalize waitLoop n u = t at *
  obtain ⟨hone, hdue⟩ : es.count .expiry = 1 ∧ u.timerFireAt ≤ t.now := by
    rcases hpolls.timer with ⟨-, harm, -⟩ | ⟨-, hone, -, -, hdue⟩
    · rw [harm, harmed] at hdisarmed; cases hdisarmed
    · exact ⟨hone, hdue⟩
  refine ⟨es, ?_, ?_, ?_, ?_, hone, hdelays, fun e he => ?_, ?_⟩
  · rw [advance_trace, ← hstart.trace]; exact hpolls.trace
  · have hblock := hstart.block
    simp only [blockPart, State.mk.injEq, Block.mk.injEq] at hblock hsame
    simp [blockPart, advance, hsame, hblock, hpresses, hlast, hdisarmed, hset, hd]
  · change _ ≤ t.timerFireAt
    rw [hfire, hstart.deadline]
    exact Nat.add_le_add_right hstart.now _
  · exact hfire.le.trans hdue
  · rcases hkinds e he with rfl | rfl | ⟨w, rfl, hw⟩
    · exact .inl rfl
    · exact .inr (.inl rfl)
    · refine .inr (.inr ⟨w, ?_⟩)
      rw [gplev_of_outputs fun p hp => ?_]
      rw [hw p ((field_congr hgpfsel p).trans hp), hlatch]
  · rwa [hexpired, hprev, hstart.env] at hscript

theorem exists_waited {s t : State} (hd : s.timerArmed = false) (hacq : s.acquired = true)
    (h : exec .waitInput s = .next t) : ∃ es, Waited s t es := by
  rw [exec_waitInput_eq hacq h]
  exact waited_waitOn hd

/-- The events a wait has added to the trace are those of the whole wait. -/
theorem waited_of_exec {s t : State} {es : List Event} (hd : s.timerArmed = false) (hacq : s.acquired = true)
    (h : exec .waitInput s = .next t) (htrace : t.trace = s.trace ++ es) : Waited s t es := by
  obtain ⟨fs, hwait⟩ := exists_waited hd hacq h
  obtain rfl : es = fs := List.append_cancel_left (htrace.symm.trans hwait.trace)
  exact hwait

/-- The registers after a wait: the press count, `resp` (R197), the flag set, the status as it was. -/
theorem Waited.registers {s t : State} {es : List Event} (h : Waited s t es) :
    t.count = presses .low (polledLevels s.cfg s.cfg.pinButton es) ∧
      t.resp = BitVec.ofNat 32 (presses .low (polledLevels s.cfg s.cfg.pinButton es)) ∧
      t.timerExpired = true ∧ t.status = s.status := by
  have hblock := h.block
  simp only [blockPart, State.mk.injEq, Block.mk.injEq] at hblock
  simp only [hblock, and_self]

/-! ### Presses in a sequence of levels -/

theorem presses_replicate_low (prev : Level) (n : Nat) : presses prev (List.replicate n .low) = 0 := by
  induction n generalizing prev with
  | zero => rfl
  | succ n ih => simp [List.replicate_succ, presses, ih]

/-- However long it lasts, HIGH is one press after LOW and none after HIGH. -/
theorem presses_replicate_high (n : Nat) :
    presses .high (List.replicate n .high) = 0 ∧ presses .low (List.replicate n .high) = min 1 n := by
  induction n with
  | zero => exact ⟨rfl, rfl⟩
  | succ n ih => simp [List.replicate_succ, presses, ih.1]

/-- A clean press among the polls, wherever it stands (R202). -/
theorem presses_clean (a b c : Nat) :
    presses .low (List.replicate a .low ++ List.replicate (b + 1) .high ++ List.replicate c .low) = 1 := by
  have hlow : (List.replicate a Level.low).getLastD .low = .low := by
    cases a <;> simp [List.getLastD_eq_getLast?, List.getLast?_replicate]
  rw [presses_append, presses_append, hlow, presses_replicate_low, presses_replicate_low, (presses_replicate_high _).2]
  simp

/-- A polled level is the pin's in the word of some read of the level register. -/
theorem exists_read_of_mem_polledLevels {c : Cfg} {p : Pin} {es : List Event} {l : Level} (h : l ∈ polledLevels c p es) :
    ∃ w, .read c.gplevOff w ∈ es ∧ l = levelIn w p := by
  induction es with
  | nil => cases h
  | cons e es ih =>
    have hcons : polledLevels c p (e :: es) = polledLevels c p [e] ++ polledLevels c p es := polledLevels_append c p [e] es
    rw [hcons, List.mem_append] at h
    rcases h with h | h
    · cases e with
      | read off w =>
        by_cases hoff : off = c.gplevOff
        · simp only [polledLevels, hoff, if_true, List.mem_singleton] at h
          exact ⟨w, by simp [hoff], h⟩
        · simp [polledLevels, hoff] at h
      | write | delay | expiry | fault => cases h
    · obtain ⟨w, hw, hl⟩ := ih h
      exact ⟨w, List.mem_cons_of_mem _ hw, hl⟩

/-- Every poll of a button pin in output mode reads its latch (R25, R203). -/
theorem Waited.polledLevels_output {s t : State} {es : List Event} (h : Waited s t es)
    (hout : field s s.cfg.pinButton = selOutput) :
    polledLevels s.cfg s.cfg.pinButton es =
      List.replicate (polledLevels s.cfg s.cfg.pinButton es).length (levelOf (s.latch.getLsbD s.cfg.pinButton.val)) := by
  refine List.eq_replicate_of_mem fun l hl => ?_
  obtain ⟨w, hw, rfl⟩ := exists_read_of_mem_polledLevels hl
  obtain hread | hread | ⟨pins, hread⟩ := h.kinds _ hw
  · cases hread
  · cases hread
  · obtain rfl : w = gplev { s with extIn := pins } := by simpa using hread
    rw [levelIn_eq, gplev_getLsbD]
    exact congrArg levelOf (pinLevel_output (s := { s with extIn := pins }) hout)

/-! ### The statements on what a wait counts -/

/-- Settles O46: the check, or else the whole wait. -/
theorem waitInputEffect : Obligations.WaitInputEffect := by
  intro s hrun hd
  refine ⟨fun hacq => ?_, fun hacq => ?_⟩
  · exact exec_faulting hrun hd (f := .notAcquired) (by simp [checksOf, firstFault, hacq])
  · obtain ⟨es, h⟩ := waited_waitOn hd
    exact ⟨_, es, _, exec_waitInput hrun hacq, h.trace, rfl, h.block, h.deadline, h.now, h.expiry, h.delays, h.kinds,
      h.script⟩

/-- Settles O48: the presses in the polled levels are counted, whatever the number of polls. -/
theorem cleanPressCounts : Obligations.CleanPressCounts := by
  intro s t es hd hacq h htrace
  obtain ⟨-, hresp, -⟩ := (waited_of_exec hd hacq h htrace).registers
  refine ⟨fun hlow => ?_, fun a b c hlevels => ?_⟩
  · rw [hresp, List.eq_replicate_of_mem hlow, presses_replicate_low]
    rfl
  · rw [hresp, hlevels, presses_clean]
    rfl

/-- Settles O49: all polls read the latch, so its level is the only one there is to count. -/
theorem buttonAsOutputPin : Obligations.ButtonAsOutputPin := by
  intro s t es hd hacq h htrace hout
  have hwait := waited_of_exec hd hacq h htrace
  have hlevels := hwait.polledLevels_output hout
  obtain ⟨hcount, -⟩ := hwait.registers
  refine ⟨fun hlatch => ?_, fun hlatch => ?_⟩
  · rw [hcount, hlevels, hlatch]
    exact presses_replicate_low _ _
  · rw [hlatch] at hlevels
    rw [hcount]
    conv_lhs => rw [hlevels]
    exact (presses_replicate_high _).2

/-! ### One round of the loop -/

/-- The level that a poll at this instant reads is a new press (R195). -/
def pressFound (s : State) : Bool := decide (levelIn (gplev s) s.cfg.pinButton = .high ∧ s.prev = .low)

/-- A new press is counted and its debounce delay awaited; any other level is remembered and nothing more (R195). -/
theorem pollOn_eq (s : State) :
    pollOn s =
      if pressFound s then setPrev .high (delay (debounceTicks s.cfg) (countPress (readNow .gplev s)))
      else setPrev (levelIn (gplev s) s.cfg.pinButton) (readNow .gplev s) := by
  have hkept : setPrev s.prev (readNow .gplev s) = readNow .gplev s := rfl
  unfold pollOn takeLevel pressFound
  generalize levelIn (gplev s) s.cfg.pinButton = l
  by_cases hl : l = s.prev
  · have hno : ¬ (l = .high ∧ s.prev = .low) := fun ⟨h1, h2⟩ => by simp [h1, h2] at hl
    subst hl
    simp only [readNow_prev, if_true, hno, decide_false, Bool.false_eq_true, if_false, hkept]
  · cases l with
    | low => simp [hl]
    | high =>
      have hprev : s.prev = .low := by cases h : s.prev <;> simp_all
      simp [hprev, debounceTicks]

theorem waitLoop_expired {s : State} (n : Nat) (h : (gap s).timerExpired = true) : waitLoop (n + 1) s = gap s := by
  simp [waitLoop, h]

theorem waitLoop_clear {s : State} (n : Nat) (h : (gap s).timerExpired = false) :
    waitLoop (n + 1) s = waitLoop n (pollOn (gap s)) := by
  simp [waitLoop, h]

/-! ### Where the expiry stands in the trace -/

/-- After the expiry the loop leaves no event more: the next flag test ends it (R196). -/
theorem waitLoop_trace_disarmed {s : State} (n : Nat) (harmed : s.timerArmed = false) (hexpired : s.timerExpired = true) :
    (waitLoop n s).trace = s.trace := by
  cases n with
  | zero => exact (gapWith_disarmed _ true harmed).2.2
  | succ n =>
    obtain ⟨-, hflag, htrace⟩ := gap_disarmed harmed
    rw [waitLoop_expired n (hflag.trans hexpired), htrace]

/-- The loop's trace, from `s` to `t`, has the one expiry, and after it the rest of one debounce delay at most (R196, R198). -/
def ExpiresLast (s t : State) : Prop :=
  ∃ before after, t.trace = s.trace ++ before ++ .expiry :: after ∧
    (∀ e ∈ before, e ≠ .expiry) ∧ (∀ e ∈ after, e = .delay (debounceTicks s.cfg)) ∧ after.length ≤ 1

/-- Events before the expiry go before it. -/
theorem ExpiresLast.prepend {s t u : State} {es : List Event} (h : ExpiresLast t u) (hcfg : t.cfg = s.cfg)
    (htrace : t.trace = s.trace ++ es) (hes : ∀ e ∈ es, e ≠ .expiry) : ExpiresLast s u := by
  obtain ⟨before, after, heq, hbefore, hafter, hlen⟩ := h
  refine ⟨es ++ before, after, by rw [heq, htrace, List.append_assoc s.trace], ?_, hcfg ▸ hafter, hlen⟩
  exact fun e he => (List.mem_append.mp he).elim (hes e) (hbefore e)

/-- A gap of an armed timer: it stays so and leaves nothing, or it expires and leaves the one event (R193). -/
theorem gapWith_armed_cases (a : Nat) (m : Bool) {s : State} (harmed : s.timerArmed = true)
    (hexpired : s.timerExpired = false) :
    ((gapWith a m s).timerArmed = true ∧ (gapWith a m s).timerExpired = false ∧ (gapWith a m s).trace = s.trace) ∨
      ((gapWith a m s).timerArmed = false ∧ (gapWith a m s).timerExpired = true ∧
        (gapWith a m s).trace = s.trace ++ [.expiry]) := by
  rcases gapWith_cases a m s with ⟨h1, h2, h3⟩ | ⟨-, -, h1, h2, h3⟩
  · exact .inl ⟨h1.trans harmed, h2.trans hexpired, h3⟩
  · exact .inr ⟨h1, h2, h3⟩

theorem gap_armed_cases {s : State} (harmed : s.timerArmed = true) (hexpired : s.timerExpired = false) :
    ((gap s).timerArmed = true ∧ (gap s).timerExpired = false ∧ (gap s).trace = s.trace) ∨
      ((gap s).timerArmed = false ∧ (gap s).timerExpired = true ∧ (gap s).trace = s.trace ++ [.expiry]) :=
  gapWith_armed_cases 0 false harmed hexpired

/-- A poll with the timer armed: it stays armed and no expiry is left, or the expiry falls into the debounce delay (R198). -/
theorem pollOn_armed_cases {s : State} (harmed : s.timerArmed = true) (hexpired : s.timerExpired = false) :
    ((pollOn s).timerArmed = true ∧ (pollOn s).timerExpired = false ∧
        ∃ es, (pollOn s).trace = s.trace ++ es ∧ ∀ e ∈ es, e ≠ .expiry) ∨
      ((pollOn s).timerArmed = false ∧ (pollOn s).timerExpired = true ∧ ExpiresLast s (pollOn s)) := by
  have hread : (readNow .gplev s).trace = s.trace ++ [.read s.cfg.gplevOff (gplev s)] := rfl
  rw [pollOn_eq]
  cases pressFound s with
  | false => exact .inl ⟨harmed, hexpired, _, hread, by simp⟩
  | true =>
    rcases gapWith_armed_cases (debounceTicks s.cfg) false (s := countPress (readNow .gplev s)) harmed hexpired with
      ⟨h1, h2, h3⟩ | ⟨h1, h2, h3⟩
    · refine .inl ⟨h1, h2, [.read s.cfg.gplevOff (gplev s), .delay (debounceTicks s.cfg)], ?_, by simp⟩
      simp [delay, h3, readOffset, readValue]
    · refine .inr ⟨h1, h2, [.read s.cfg.gplevOff (gplev s)], [.delay (debounceTicks s.cfg)], ?_, by simp, by simp, le_rfl⟩
      simp [delay, h3, readOffset, readValue]

/-- Round by round: the expiry ends the loop in the gap it falls into, or in the one after the debounce delay it falls into. -/
theorem waitLoop_expiresLast (n : Nat) {s : State} (harmed : s.timerArmed = true) (hexpired : s.timerExpired = false) :
    ExpiresLast s (waitLoop n s) := by
  induction n generalizing s with
  | zero =>
    obtain ⟨-, -, hdone, -⟩ := polls_waitLoop 0 s (by rw [harmed, hexpired]; rfl)
    rcases gapWith_armed_cases (s.timerFireAt - s.now) true harmed hexpired with ⟨h1, -, -⟩ | ⟨-, -, h3⟩
    · exact absurd (h1.symm.trans hdone) (by simp)
    · exact ⟨[], [], by simpa [waitLoop] using h3, by simp, by simp, by simp⟩
  | succ n ih =>
    rcases gap_armed_cases harmed hexpired with ⟨h1, h2, h3⟩ | ⟨-, h2, h3⟩
    · rw [waitLoop_clear n h2]
      rcases pollOn_armed_cases h1 h2 with ⟨p1, p2, es, p3, hes⟩ | ⟨p1, p2, hlast⟩
      · exact (ih p1 p2).prepend (by simp) (by rw [p3, h3]) hes
      · have htail := waitLoop_trace_disarmed n p1 p2
        unfold ExpiresLast at hlast ⊢
        rwa [htail, ← h3, ← gap_cfg s]
    · rw [waitLoop_expired n h2]
      exact ⟨[], [], by simpa using h3, by simp, by simp, by simp⟩

theorem waitOn_trace (s : State) : (waitOn s).trace = (waitLoop (waitFuel (startWait s)) (startWait s)).trace := rfl

/-- Settles O47: arming leaves no event, and the loop leaves the expiry last but for a debounce delay. -/
theorem noPollAfterExpiry : Obligations.NoPollAfterExpiry := by
  intro s t hd hacq h
  have hstart := starts_startWait hd
  obtain ⟨hcfg, -, -, -, -, harmed, hexpired⟩ := hstart.rest
  have hlast := (waitLoop_expiresLast (waitFuel (startWait (gap s))) harmed hexpired).prepend hcfg
    (by rw [hstart.trace, List.append_nil]) (by simp)
  rwa [ExpiresLast, ← waitOn_trace, ← advance_trace, ← exec_waitInput_eq hacq h] at hlast

/-! ### A wait on scripted moves -/

theorem gap_withEnv (g : EnvMove) (l : List EnvMove) (s : State) : gap (withEnv (g :: l) s) = withEnv l (afterMove 0 g s) :=
  gapWith_withEnv 0 g l s

theorem pollOn_quiet {s : State} (h : pressFound s = false) :
    pollOn s = setPrev (levelIn (gplev s) s.cfg.pinButton) (readNow .gplev s) := by
  rw [pollOn_eq, h]; rfl

/-- A poll that finds a new press, with its debounce delay by the move `g` (R195, R198). -/
def pressOn (g : EnvMove) (s : State) : State :=
  setPrev .high (emit (.delay (debounceTicks s.cfg)) (afterMove (debounceTicks s.cfg) g (countPress (readNow .gplev s))))

/-- A poll takes no move off the script unless it finds a press. -/
theorem pollOn_withEnv_quiet {s : State} (l : List EnvMove) (h : pressFound s = false) :
    pollOn (withEnv l s) = withEnv l (pollOn s) := by
  rw [pollOn_quiet h, pollOn_quiet (s := withEnv l s) h]
  rfl

theorem pollOn_withEnv_press {s : State} (g : EnvMove) (l : List EnvMove) (h : pressFound s = true) :
    pollOn (withEnv (g :: l) s) = withEnv l (pressOn g s) := by
  have hpress : pressFound (withEnv (g :: l) s) = true := h
  have hgap := gapWith_withEnv (debounceTicks s.cfg) g l (countPress (readNow .gplev s))
  rw [pollOn_eq, hpress]
  exact congrArg (fun u => setPrev .high (emit (.delay (debounceTicks s.cfg)) u)) hgap

/-- Arming in a gap by the move `g` (R192). -/
def armedBy (g : EnvMove) (s : State) : State :=
  { timerArm (afterMove 0 g s) with prev := .low, count := 0, draws := (afterMove 0 g s).draws + 1 }

theorem startWait_withEnv (g : EnvMove) (l : List EnvMove) (s : State) :
    startWait (withEnv (g :: l) s) = withEnv l (armedBy g s) := by
  rw [startWait, gap_withEnv]; rfl

/-! ### Unending environments -/

/-- The moves after the first. -/
def laterMoves (m : Nat → EnvMove) : Nat → EnvMove := fun k => m (k + 1)

theorem script_later (m : Nat → EnvMove) (n : Nat) : script m (n + 1) = m 0 :: script (laterMoves m) n := by
  simp [script, laterMoves, List.range_succ_eq_map, Function.comp_def]

theorem ticksOf_later (m : Nat → EnvMove) (n : Nat) : ticksOf m (n + 1) = (m 0).ticks + ticksOf (laterMoves m) n := by
  induction n with
  | zero => simp
  | succ n ih => rw [ticksOf_succ, ih, ticksOf_succ, Nat.add_assoc]; rfl

theorem TimeAdvances.later {m : Nat → EnvMove} (h : TimeAdvances m) : TimeAdvances (laterMoves m) := by
  intro t
  obtain ⟨n, hn⟩ := h ((m 0).ticks + t)
  have hle := hn.trans (ticksOf_mono m n.le_succ)
  rw [ticksOf_later] at hle
  exact ⟨n, Nat.le_of_add_le_add_left hle⟩

theorem TimerFair.later {m : Nat → EnvMove} (h : TimerFair m) : TimerFair (laterMoves m) := by
  intro n
  obtain ⟨k, hk, hfires⟩ := h (n + 1)
  obtain ⟨j, rfl⟩ : ∃ j, k = j + 1 := ⟨k - 1, by omega⟩
  exact ⟨j, Nat.le_of_succ_le_succ hk, hfires⟩

/-- The flag is set, or one of the next `k` moves brings the expiry at the latest: the timer agent is willing in it, and the
deadline has come by then (R193, R194). -/
def DueWithin (m : Nat → EnvMove) (k : Nat) (s : State) : Prop :=
  s.timerExpired = true ∨
    s.timerArmed = true ∧ ∃ j < k, (m j).fires = true ∧ s.timerFireAt ≤ s.now + ticksOf m (j + 1)

/-- The two fairness premises bring the expiry of an armed timer (R194, R199). -/
theorem exists_dueWithin {m : Nat → EnvMove} {s : State} (htime : TimeAdvances m) (hfair : TimerFair m)
    (harmed : s.timerArmed = true) : ∃ k, DueWithin m k s := by
  obtain ⟨n, hn⟩ := htime s.timerFireAt
  obtain ⟨j, hj, hfires⟩ := hfair n
  have hticks : ticksOf m n ≤ ticksOf m (j + 1) := ticksOf_mono m (hj.trans j.le_succ)
  exact ⟨j + 1, .inr ⟨harmed, j, j.lt_succ_self, hfires, by omega⟩⟩

theorem DueWithin.mono {m : Nat → EnvMove} {j k : Nat} {s : State} (h : DueWithin m j s) (hjk : j ≤ k) : DueWithin m k s :=
  h.imp_right fun ⟨harmed, i, hi, hrest⟩ => ⟨harmed, i, hi.trans_le hjk, hrest⟩

theorem DueWithin.expired {m : Nat → EnvMove} {s : State} (h : DueWithin m 0 s) : s.timerExpired = true :=
  h.resolve_right fun ⟨_, _, hj, _⟩ => absurd hj (Nat.not_lt_zero _)

/-- With every move the expiry comes nearer. -/
theorem DueWithin.afterMove {m : Nat → EnvMove} {k : Nat} {s : State} (a : Nat) (h : DueWithin m (k + 1) s) :
    DueWithin (laterMoves m) k (afterMove a (m 0) s) := by
  rcases afterMove_cases a (m 0) s with ⟨hflag, harm, hnot⟩ | hexpired
  · refine h.imp hflag.trans fun ⟨harmed, j, hj, hfires, hdue⟩ => ⟨harm.trans harmed, ?_⟩
    cases j with
    | zero => exact absurd ⟨harmed, hfires, hdue.trans (by simp)⟩ hnot
    | succ j =>
      refine ⟨j, Nat.lt_of_succ_lt_succ hj, hfires, ?_⟩
      rw [ticksOf_later] at hdue
      rw [afterMove_timerFireAt, afterMove_now]
      omega
  · exact .inl hexpired

/-- Whether the expiry is due is a matter of the timer and the clock alone. -/
theorem DueWithin.of_timer {m : Nat → EnvMove} {k : Nat} {s u : State} (h : DueWithin m k s)
    (hflag : u.timerExpired = s.timerExpired) (harmed : u.timerArmed = s.timerArmed)
    (hfire : u.timerFireAt = s.timerFireAt) (hnow : u.now = s.now) : DueWithin m k u := by
  unfold DueWithin
  rwa [hflag, harmed, hfire, hnow]

theorem DueWithin.setPrev_readNow {m : Nat → EnvMove} {k : Nat} {s : State} (l : Level) (h : DueWithin m k s) :
    DueWithin m k (setPrev l (readNow .gplev s)) :=
  h.of_timer (by simp) (by simp) (by simp) (by simp)

theorem DueWithin.pressOn {m : Nat → EnvMove} {k : Nat} {s : State} (h : DueWithin m (k + 1) s) :
    DueWithin (laterMoves m) k (pressOn (m 0) s) := by
  have hcounted : DueWithin m (k + 1) (countPress (readNow .gplev s)) :=
    h.of_timer (by simp) (by simp) (by simp) (by simp)
  exact (hcounted.afterMove (debounceTicks s.cfg)).of_timer rfl rfl rfl rfl

/-! ### The loop ends by the moves alone -/

/-- The loop at `s` ends after a number of the moves `m`, in the same state whatever moves come next and however many polls more
it might have made. -/
def EndsBy (m : Nat → EnvMove) (s : State) : Prop :=
  ∃ (n : Nat) (t : State), ∀ (fuel : Nat) (rest : List EnvMove), n ≤ fuel →
    waitLoop fuel (withEnv (script m n ++ rest) s) = withEnv rest t

section rounds

variable {m : Nat → EnvMove} {s : State}

/-- The flag found set: the loop is over. -/
theorem endsBy_of_expired (h : (afterMove 0 (m 0) s).timerExpired = true) : EndsBy m s := by
  refine ⟨1, afterMove 0 (m 0) s, fun fuel rest hfuel => ?_⟩
  obtain ⟨fuel, rfl⟩ := Nat.exists_eq_add_of_le' hfuel
  have hgap : gap (withEnv (script m 1 ++ rest) s) = withEnv rest (afterMove 0 (m 0) s) := gap_withEnv (m 0) rest s
  rw [waitLoop_expired fuel (by rw [hgap]; exact h), hgap]

/-- The flag found clear: the loop goes on after the poll, which takes the moves `taken` off the script and leaves `m'`. -/
theorem endsBy_of_poll {m' : Nat → EnvMove} {u : State} (taken : List EnvMove) (h : (afterMove 0 (m 0) s).timerExpired = false)
    (hscript : ∀ n, script (laterMoves m) (n + taken.length) = taken ++ script m' n)
    (hpoll : ∀ l, pollOn (withEnv (taken ++ l) (afterMove 0 (m 0) s)) = withEnv l u) (hu : EndsBy m' u) : EndsBy m s := by
  obtain ⟨n, t, ht⟩ := hu
  refine ⟨n + taken.length + 1, t, fun fuel rest hfuel => ?_⟩
  obtain ⟨fuel, rfl⟩ : ∃ f, fuel = f + 1 := ⟨fuel - 1, by omega⟩
  have hgap := gap_withEnv (m 0) (taken ++ (script m' n ++ rest)) s
  rw [script_later, hscript, List.cons_append, List.append_assoc, waitLoop_clear fuel (by rw [hgap]; exact h), hgap, hpoll]
  exact ht fuel rest (by omega)

/-- Every move brings the expiry nearer, so the rounds come to an end. -/
theorem endsBy_of_dueWithin (k : Nat) (h : DueWithin m k s) : EndsBy m s := by
  induction k generalizing m s with
  | zero => exact endsBy_of_expired ((h.mono (Nat.zero_le 1)).afterMove 0).expired
  | succ k ih =>
    have hnext := h.afterMove 0
    cases hx : (afterMove 0 (m 0) s).timerExpired with
    | true => exact endsBy_of_expired hx
    | false =>
      cases hp : pressFound (afterMove 0 (m 0) s) with
      | false =>
        refine endsBy_of_poll [] hx (fun _ => rfl) (fun l => pollOn_withEnv_quiet l hp) (ih ?_)
        rw [pollOn_quiet hp]
        exact hnext.setPrev_readNow _
      | true =>
        exact endsBy_of_poll [m 1] hx (script_later (laterMoves m)) (fun l => pollOn_withEnv_press (m 1) l hp)
          (ih (hnext.mono k.le_succ).pressOn)

end rounds

/-- Settles O56: from arming on the premises make the expiry due, and the two moves before are those of the gaps before the
command and before arming. -/
theorem waitEndsUnderFairness : Obligations.WaitEndsUnderFairness := by
  intro s m hrun hd hacq htime hfair
  obtain ⟨k, hk⟩ := exists_dueWithin htime.later.later hfair.later.later
    (s := armedBy (laterMoves m 0) (afterMove 0 (m 0) s)) rfl
  obtain ⟨n, t, ht⟩ := endsBy_of_dueWithin k hk
  have hexec : ∀ rest, exec .waitInput (withEnv (script m (n + 2) ++ rest) s) =
      .next (withEnv rest (advance { t with resp := BitVec.ofNat 32 t.count })) := by
    intro rest
    rw [exec_waitInput (s := withEnv (script m (n + 2) ++ rest) s) hrun hacq, script_later, script_later, List.cons_append,
      List.cons_append, gap_withEnv, waitOn_eq, startWait_withEnv, ht _ _ (by simp [waitFuel, withEnv]; omega)]
    rfl
  obtain ⟨es, hwait⟩ := exists_waited (s := withEnv (script m (n + 2) ++ []) s) hd hacq (hexec [])
  obtain ⟨-, -, hexpired, hstatus⟩ := hwait.registers
  exact ⟨n + 2, _, hexpired, hstatus.trans hrun, hexec⟩

end Sys2Proof.Machine

/-! SUPPORT. The host beside the block (50_host_collaborators): the score as counts over the pairs of slots, the digits of a
secret, the host's errors, and from that the statements on the host. -/

namespace Sys2Proof.Machine

/-! ### The two passes of the matching engine -/

/-- The colour a slot of a working copy still holds; a consumed slot holds none. -/
def Peg.colour? : Peg → Option Nat
  | .color v => some v
  | .sentS => none
  | .sentG => none

/-- The colours that a working copy still offers, their order forgotten. -/
def coloursOf (l : List Peg) : Multiset Nat := (l.filterMap Peg.colour? : List Nat)

@[simp] theorem coloursOf_nil : coloursOf [] = 0 := rfl

@[simp] theorem coloursOf_color (v : Nat) (l : List Peg) : coloursOf (.color v :: l) = v ::ₘ coloursOf l := rfl

@[simp] theorem coloursOf_sentS (l : List Peg) : coloursOf (.sentS :: l) = coloursOf l := rfl

@[simp] theorem coloursOf_sentG (l : List Peg) : coloursOf (.sentG :: l) = coloursOf l := rfl

/-- Consuming a colour the copy does not offer fails (R223). -/
theorem consumeFirst_eq_none {v : Nat} {l : List Peg} (h : v ∉ coloursOf l) : consumeFirst (.color v) l = none := by
  induction l with
  | nil => rfl
  | cons a l ih =>
    cases a with
    | color w =>
      obtain ⟨hne, hl⟩ : v ≠ w ∧ v ∉ coloursOf l := by simpa using h
      simp [consumeFirst, Ne.symm hne, ih hl]
    | sentS | sentG => simp [consumeFirst, ih h]

theorem consumeFirst_cons_of_ne {v a : Peg} {l l' : List Peg} (h : a ≠ v) (hsome : consumeFirst v l = some l') :
    consumeFirst v (a :: l) = some (a :: l') := by
  simp [consumeFirst, h, hsome]

/-- Consuming a colour the copy offers takes one slot of it away, and no slot of another colour (R223). -/
theorem consumeFirst_eq_some {v : Nat} {l : List Peg} (h : v ∈ coloursOf l) :
    ∃ l', consumeFirst (.color v) l = some l' ∧ coloursOf l' = (coloursOf l).erase v := by
  induction l with
  | nil => simp at h
  | cons a l ih =>
    cases a with
    | color w =>
      by_cases hw : w = v
      · subst hw
        exact ⟨.sentS :: l, by simp [consumeFirst], by simp⟩
      · obtain ⟨l', hsome, herase⟩ := ih (by simpa [Ne.symm hw] using h)
        exact ⟨.color w :: l', consumeFirst_cons_of_ne (by simpa using hw) hsome, by simp [herase, hw]⟩
    | sentS | sentG =>
      obtain ⟨l', hsome, herase⟩ := ih h
      exact ⟨_, consumeFirst_cons_of_ne (by simp) hsome, herase⟩

/-- The approximate pass counts the common colours of the two copies, as multisets (R223, R224). The guess copy is consumed with
its own sentinel only. -/
theorem approxPass_eq_card_inter {g : List Peg} (hg : .sentS ∉ g) (s : List Peg) :
    approxPass g s = (coloursOf g ∩ coloursOf s).card := by
  induction g generalizing s with
  | nil => simp [approxPass]
  | cons b g ih =>
    have hg' : .sentS ∉ g := fun h => hg (.tail _ h)
    cases b with
    | sentS => simp at hg
    | sentG => simp [approxPass, ih hg']
    | color v =>
      by_cases hv : v ∈ coloursOf s
      · obtain ⟨s', hsome, herase⟩ := consumeFirst_eq_some hv
        simp [approxPass, hsome, ih hg', herase, Multiset.cons_inter_of_pos _ hv]
      · simp [approxPass, consumeFirst_eq_none hv, ih hg', Multiset.cons_inter_of_neg _ hv]

/-! ### The score over the pairs of slots -/

/-- How many positions agree (R223). -/
def agreements (z : List (Nat × Nat)) : Nat := z.countP fun ab => decide (ab.1 = ab.2)

/-- The positions the exact pass does not consume (R223). -/
def unmatched (z : List (Nat × Nat)) : List (Nat × Nat) := z.filter fun ab => decide (ab.1 ≠ ab.2)

/-- The secret's colours in those positions. -/
def secretLeft (z : List (Nat × Nat)) : Multiset Nat := ((unmatched z).map Prod.fst : List Nat)

/-- The guess's colours in those positions. -/
def guessLeft (z : List (Nat × Nat)) : Multiset Nat := ((unmatched z).map Prod.snd : List Nat)

/-- What the exact pass over these pairs of slots gives (R223). -/
def exactOf (z : List (Nat × Nat)) : Nat × List Peg × List Peg :=
  exactPass ((z.map Prod.fst).map .color) ((z.map Prod.snd).map .color)

theorem exactOf_cons_agree (a : Nat) (z : List (Nat × Nat)) :
    exactOf ((a, a) :: z) = ((exactOf z).1 + 1, .sentS :: (exactOf z).2.1, .sentG :: (exactOf z).2.2) := by
  simp [exactOf, exactPass]

theorem exactOf_cons_differ {a b : Nat} (h : a ≠ b) (z : List (Nat × Nat)) :
    exactOf ((a, b) :: z) = ((exactOf z).1, .color a :: (exactOf z).2.1, .color b :: (exactOf z).2.2) := by
  simp [exactOf, exactPass, h]

/-- The exact pass counts the positions that agree and leaves the colours of the others; the secret's sentinel does not get into
the guess copy (R223). -/
theorem exactOf_spec (z : List (Nat × Nat)) :
    (exactOf z).1 = agreements z ∧ coloursOf (exactOf z).2.1 = secretLeft z ∧ coloursOf (exactOf z).2.2 = guessLeft z ∧
      .sentS ∉ (exactOf z).2.2 := by
  induction z with
  | nil => simp [exactOf, exactPass, agreements, unmatched, secretLeft, guessLeft]
  | cons ab z ih =>
    obtain ⟨a, b⟩ := ab
    obtain ⟨hcount, hs, hg, hsent⟩ := ih
    by_cases h : a = b
    · subst h
      simp [exactOf_cons_agree, hcount, hs, hg, hsent, agreements, unmatched, secretLeft, guessLeft]
    · simp [exactOf_cons_differ h, hcount, hs, hg, hsent, agreements, unmatched, secretLeft, guessLeft, h]

/-- The score of two sequences of equal length, over the pairs of their slots (R223, R224). -/
theorem score_eq {secret guess : List Nat} (h : secret.length = guess.length) :
    score secret guess = (agreements (secret.zip guess),
      (secretLeft (secret.zip guess) ∩ guessLeft (secret.zip guess)).card) := by
  obtain ⟨hcount, hs, hg, hsent⟩ := exactOf_spec (secret.zip guess)
  have hscore : score secret guess = ((exactOf (secret.zip guess)).1,
      approxPass (exactOf (secret.zip guess)).2.2 (exactOf (secret.zip guess)).2.1) := by
    rw [exactOf, List.map_fst_zip h.le, List.map_snd_zip h.ge]
    rfl
  rw [hscore, approxPass_eq_card_inter hsent, hcount, hs, hg, Multiset.inter_comm]

/-- Every position agrees or is left to the approximate pass. -/
theorem agreements_add_unmatched (z : List (Nat × Nat)) : agreements z + (unmatched z).length = z.length := by
  simp [agreements, unmatched, ← List.countP_eq_length_filter, z.length_eq_countP_add_countP fun ab => decide (ab.1 = ab.2)]

/-- The common colours of those positions are at most as many as the positions. -/
theorem card_inter_le_unmatched (z : List (Nat × Nat)) : (secretLeft z ∩ guessLeft z).card ≤ (unmatched z).length :=
  (Multiset.card_le_card Multiset.inter_le_left).trans (by simp [secretLeft])

/-- All positions agree exactly if the sequences are identical. -/
theorem agreements_eq_length_iff (z : List (Nat × Nat)) :
    agreements z = z.length ↔ z.map Prod.fst = z.map Prod.snd := by
  simp [agreements, List.countP_eq_length]

theorem agreements_swap (z : List (Nat × Nat)) : agreements (z.map Prod.swap) = agreements z := by
  simp [agreements, List.countP_map, Function.comp_def, eq_comm]

theorem unmatched_swap (z : List (Nat × Nat)) : unmatched (z.map Prod.swap) = (unmatched z).map Prod.swap := by
  simp [unmatched, List.filter_map, Function.comp_def, eq_comm]

theorem secretLeft_swap (z : List (Nat × Nat)) : secretLeft (z.map Prod.swap) = guessLeft z := by
  rw [secretLeft, unmatched_swap, List.map_map]
  rfl

theorem guessLeft_swap (z : List (Nat × Nat)) : guessLeft (z.map Prod.swap) = secretLeft z := by
  rw [guessLeft, unmatched_swap, List.map_map]
  rfl

/-- Swapping the sequences changes neither number (R225). -/
theorem score_comm {secret guess : List Nat} (h : secret.length = guess.length) : score guess secret = score secret guess := by
  rw [score_eq h, score_eq h.symm, ← List.zip_swap secret guess, agreements_swap, secretLeft_swap, guessLeft_swap,
    Multiset.inter_comm]

/-- Settles O51: the approximate count is at most the number of positions that differ. -/
theorem scoreBounds : Obligations.ScoreBounds := by
  intro secret guess h
  have hlen : (secret.zip guess).length = secret.length := by simp [h]
  refine ⟨?_, ?_, score_comm h⟩
  · have hall := agreements_add_unmatched (secret.zip guess)
    have happrox := card_inter_le_unmatched (secret.zip guess)
    rw [score_eq h]
    dsimp only
    omega
  · have hfull := agreements_eq_length_iff (secret.zip guess)
    rw [List.map_fst_zip h.le, List.map_snd_zip h.ge, hlen] at hfull
    rwa [score_eq h]

/-- The size of a multiset of numbers below `n` is the sum over them of how often each occurs. -/
theorem card_eq_sum_count {n : Nat} {m : Multiset Nat} (h : ∀ v ∈ m, v < n) :
    m.card = ((List.range n).map fun v => m.count v).sum :=
  (Multiset.sum_count_eq_card (s := Finset.range n) fun v hv => Finset.mem_range.2 (h v hv)).symm

/-- Settles O52: the common colours of the two copies are the smaller of the two counts of each colour. -/
theorem scoreIsColourOverlap : Obligations.ScoreIsColourOverlap := by
  rintro secret guess colors _ h hsecret - rfl
  have hbelow : ∀ v ∈ secretLeft (secret.zip guess) ∩ guessLeft (secret.zip guess), v < colors + 1 := by
    intro v hv
    obtain ⟨ab, hab, rfl⟩ := List.mem_map.1 (Multiset.mem_inter.1 hv).1
    exact Nat.lt_succ_of_le (hsecret _ (List.of_mem_zip (List.mem_of_mem_filter hab)).1)
  rw [score_eq h, card_eq_sum_count hbelow]
  simp only [Multiset.count_inter, secretLeft, guessLeft, Multiset.coe_count]
  exact ⟨rfl, rfl⟩

/-! ### The digits of a secret -/

theorem decimalDigits_lt_ten (k n : Nat) : ∀ d ∈ decimalDigits k n, d < 10 := by
  induction k generalizing n with
  | zero => simp [decimalDigits]
  | succ k ih =>
    intro d hd
    rcases List.mem_append.1 hd with hd | hd
    · exact ih _ d hd
    · obtain rfl : d = n % 10 := by simpa using hd
      exact Nat.mod_lt _ (by decide)

/-- The last `k` digits of `n` are the digits of `n` modulo `10 ^ k` (R226). -/
theorem decimalDigits_foldl (k n : Nat) : (decimalDigits k n).foldl (fun a d => 10 * a + d) 0 = n % 10 ^ k := by
  induction k generalizing n with
  | zero => simp [decimalDigits, Nat.mod_one]
  | succ k ih => rw [decimalDigits, List.foldl_append, ih, pow_succ', Nat.mod_mul]; simp [Nat.add_comm]

theorem hasDigits_iff {k n : Nat} (hk : 1 ≤ k) : hasDigits k n = true ↔ n < 10 ^ k ∧ (k = 1 ∨ 10 ^ (k - 1) ≤ n) := by
  simp [hasDigits, hk]

theorem decodeSecret_malformed {seqlen colors n : Nat} (h : ¬ hasDigits seqlen n = true) :
    decodeSecret seqlen colors n = .malformedSecretLength := by
  simp [decodeSecret, h]

theorem decodeSecret_ok {seqlen colors n : Nat} (h : hasDigits seqlen n = true)
    (hd : ∀ d ∈ decimalDigits seqlen n, 1 ≤ d ∧ d ≤ colors) :
    decodeSecret seqlen colors n = .ok (decimalDigits seqlen n) := by
  simpa [decodeSecret, h] using hd

theorem decodeSecret_invalidDigit {seqlen colors n : Nat} (h : hasDigits seqlen n = true)
    (hd : ¬ ∀ d ∈ decimalDigits seqlen n, 1 ≤ d ∧ d ≤ colors) : decodeSecret seqlen colors n = .invalidDigit := by
  simpa [decodeSecret, h] using hd

/-- Settles O53: the sequence is the number's last `seqlen` digits, all its digits when it has that many. -/
theorem secretDecoding : Obligations.SecretDecoding := by
  intro seqlen colors n hlen
  refine ⟨fun hbig => ?_, fun hone hsmall => ?_, fun hlt hge => ?_⟩
  · exact decodeSecret_malformed (by rw [hasDigits_iff hlen]; omega)
  · exact decodeSecret_malformed (by rw [hasDigits_iff hlen]; omega)
  · have hdigits := (hasDigits_iff hlen).2 ⟨hlt, hge⟩
    exact ⟨decimalDigits seqlen n, Laws.decimalDigits_length _ _, decimalDigits_lt_ten _ _,
      (decimalDigits_foldl _ _).trans (Nat.mod_eq_of_lt hlt), decodeSecret_ok hdigits, decodeSecret_invalidDigit hdigits⟩

/-! ### Errors of the host -/

theorem SecretResult.fatal_eq_none_iff (r : SecretResult) : r.fatal = none ↔ ∃ seq, r = .ok seq := by
  cases r <;> simp [SecretResult.fatal]

theorem hostCode_ne_zero (f : HostFatal) : hostCode f ≠ 0 := by
  cases f <;> decide

/-- Without an error of its own the host reports what the block's end gives (R36, R235). -/
@[simp] theorem hostExitStatus_none (t : State) : hostExitStatus none t = exitStatus t := by
  cases h : t.status <;> simp [hostExitStatus, h]

/-- After an error of its own the host reports the error, although the block ended well (R235). -/
theorem hostExitStatus_fatal {t : State} (f : HostFatal) (h : t.status = .haltedOk) :
    hostExitStatus (some f) t = some (hostCode f) := by
  simp [hostExitStatus, h]

/-- A digit outside the colours is refused, and the session stays as it was (R230). -/
theorem takeDigit_of_refused {count : Nat} {g : Session} (h : ¬ (1 ≤ count ∧ count ≤ g.colors)) : takeDigit count g = g :=
  if_neg fun hd => h hd.2

/-- Settles O60: the exit path is RELEASE, which ends the block well; the host's codes are not zero. -/
theorem hostErrors : Obligations.HostErrors := by
  refine ⟨fun s f hrun => ?_, fun _ _ _ => SecretResult.fatal_eq_none_iff _, fun _ _ => takeDigit_of_refused⟩
  obtain ⟨⟨t, hexec, hend, hstatus⟩, -⟩ := releaseEffect s hrun
  exact ⟨t, execAll_cons hexec, hend, hstatus, (hostExitStatus_none t).trans hstatus, hostCode f,
    hostExitStatus_fatal f hend.status, hostCode_ne_zero f⟩

/-! ### The end of a round -/

/-- Settles O54: the tests of `completeRound` in their order. -/
theorem roundCompletion : Obligations.RoundCompletion := by
  intro g hphase
  refine ⟨?_, fun hwin => ?_, fun hwin hmax => ?_, fun hwin hmax => ?_⟩
  · simp [completeRound, hphase]
  · simp [completeRound, hphase, hwin]
  · simp [completeRound, hphase, hwin, hmax]
  · simp [completeRound, hphase, hwin, Nat.not_le.2 hmax]

end Sys2Proof.Machine

/-! SUPPORT. Faults (60_exceptions): fault entry after a gap is a fault's whole effect, the causes of a command's checks are its row of
R249, each of them is met in some state, and from that the statements on faults. -/

namespace Sys2Proof.Machine

/-! ### Fault entry -/

/-- With the timer disarmed the gap before fault entry leaves nothing behind, so fault entry is the whole effect (R250). -/
theorem faultedWith_faultEntry_gap {s : State} (f : BlockFault) (hd : s.timerArmed = false) :
    FaultedWith (faultCode f) s (faultEntry f (gap s)) := by
  obtain ⟨-, -, htrace⟩ := gap_disarmed hd
  refine ⟨?_, congrArg (· ++ [Event.fault (faultCode f)]) htrace⟩
  exact congrArg (fun b : State =>
    { b with faultCause := faultCode f, status := .faulted, acquired := false, timerArmed := false }) (blockPart_gap hd)

theorem reservedWord_next {s t : State} (h : reservedWord s = .next t) : t = faultEntry .illegalCommand (gap s) :=
  (perform_next h).2

theorem step_reserved {s : State} {w : Word} {r : Reserved} (hf : fetch s = .word w) (hd : decode w = .reserved r) :
    step s = reservedWord s := by simp [step, hf, hd]

/-- A body ends RUNNING or, that of RELEASE, HALTED_OK: only a failed check enters a fault (R240). -/
theorem bodyOf_status_ne_faulted (i : Instr) {s : State} (hrun : s.status = .running) : (bodyOf i s).status ≠ .faulted := by
  have hstatus : (bodyOf i s).status = (completed (bodyOf i s) s i).status :=
    (sameRegisters_of_eq (registers_bodyOf i s)).status
  rw [hstatus]
  by_cases hi : i = .release
  · subst hi
    simp [completed_release]
  · simp [completed_status _ s hi, hrun]

/-- A command that ends faulted has failed a check and entered that check's fault. -/
theorem exec_ends_faulted {i : Instr} {s t : State} (h : exec i s = .next t) (ht : t.status = .faulted) :
    ∃ f, firstFault (checksOf i s) = some f ∧ t = faultEntry f (gap s) := by
  obtain ⟨hrun, hfault | ⟨-, rfl⟩⟩ := exec_cases h
  · exact hfault
  · exact absurd ht (bodyOf_status_ne_faulted i ((gap_status s).trans hrun))

theorem step_ends_faulted {s t : State} (h : step s = .next t) (ht : t.status = .faulted) :
    ∃ f, t = faultEntry f (gap s) := by
  obtain ⟨w, -, ⟨i, -, hexec⟩ | ⟨r, -, hres⟩⟩ := step_next h
  · obtain ⟨f, -, hf⟩ := exec_ends_faulted hexec ht
    exact ⟨f, hf⟩
  · exact ⟨.illegalCommand, reservedWord_next hres⟩

/-! ### The causes of a command's checks -/

/-- The causes of a command's checks, in their order, are its row of R249. -/
theorem checksOf_causes (i : Instr) (s : State) : (checksOf i s).map (fun check => faultCode check.2) = mayRaise i := by
  cases i <;> rfl

theorem mem_of_firstFault {checks : List (Bool × BlockFault)} {f : BlockFault} (h : firstFault checks = some f) :
    (true, f) ∈ checks := by
  induction checks with
  | nil => simp [firstFault] at h
  | cons check rest ih =>
    obtain ⟨holds, g⟩ := check
    cases holds with
    | true =>
      obtain rfl : g = f := by simpa [firstFault] using h
      exact List.mem_cons_self
    | false => exact List.mem_cons_of_mem _ (ih h)

theorem faultCode_mem_mayRaise {i : Instr} {s : State} {f : BlockFault} (h : firstFault (checksOf i s) = some f) :
    faultCode f ∈ mayRaise i := by
  rw [← checksOf_causes i s]
  exact List.mem_map_of_mem (f := fun check => faultCode check.2) (mem_of_firstFault h)

/-! ### Every listed cause occurs -/

/-- Some command of `i`'s row ends faulted with cause `c` from some state. -/
def CauseOccurs (i : Instr) (c : Byte) : Prop :=
  ∃ (j : Instr) (s t : State), rowOf j = rowOf i ∧ exec j s = .next t ∧ t.status = .faulted ∧ t.faultCause = c

theorem causeOccurs_of_check {i j : Instr} (s : State) (f : BlockFault) (hrow : rowOf j = rowOf i)
    (hrun : s.status = .running) (hf : firstFault (checksOf j s) = some f) : CauseOccurs i (faultCode f) := by
  refine ⟨j, s, faultEntry f (gap s), hrow, ?_, rfl, rfl⟩
  rw [exec_eq_perform, perform_running _ _ hrun, checksOf_gap, afterChecks_some hf]

/-- The block after reset with the register block mapped. -/
def mappedReset : State := { State.reset with acquired := true }

/-- A pin command faults on pin 32, and on pin 0 before ACQUIRE. -/
theorem causeOccurs_pinCommand {i : Instr} {command : Nat → Instr} (hrow : ∀ pin, rowOf (command pin) = rowOf i)
    (hchecks : ∀ pin s, checksOf (command pin) s = pinChecks pin s) : ∀ c ∈ [17, 18], CauseOccurs i c := by
  have hinvalid : CauseOccurs i 17 :=
    causeOccurs_of_check State.reset .invalidPin (hrow 32) rfl (by rw [hchecks]; rfl)
  have hunmapped : CauseOccurs i 18 :=
    causeOccurs_of_check State.reset .notAcquired (hrow 0) rfl (by rw [hchecks]; rfl)
  exact List.forall_mem_cons.2 ⟨hinvalid, List.forall_mem_singleton.2 hunmapped⟩

/-- An LCD command faults before ACQUIRE, and between ACQUIRE and LCD_INIT. -/
theorem causeOccurs_lcdCommand {i : Instr} (hchecks : ∀ s, checksOf i s = lcdChecks s) :
    ∀ c ∈ [18, 20], CauseOccurs i c := by
  have hunmapped : CauseOccurs i 18 := causeOccurs_of_check State.reset .notAcquired rfl rfl (by rw [hchecks]; rfl)
  have huninit : CauseOccurs i 20 := causeOccurs_of_check mappedReset .lcdNotInitialized rfl rfl (by rw [hchecks]; rfl)
  exact List.forall_mem_cons.2 ⟨hunmapped, List.forall_mem_singleton.2 huninit⟩

/-- ACQUIRE faults on a mapped block, and where the memory device cannot be opened. -/
theorem causeOccurs_acquire : ∀ c ∈ mayRaise .acquire, CauseOccurs .acquire c := by
  have hmapped : CauseOccurs .acquire 19 := causeOccurs_of_check mappedReset .alreadyAcquired rfl rfl rfl
  have hdevice : CauseOccurs .acquire 1 :=
    causeOccurs_of_check { State.reset with hwAvailable := false } .hardwareUnavailable rfl rfl rfl
  exact List.forall_mem_cons.2 ⟨hmapped, List.forall_mem_singleton.2 hdevice⟩

/-- LCD_INIT faults before ACQUIRE, and under a configuration that asks for the 8-bit bus. -/
theorem causeOccurs_lcdInit : ∀ c ∈ mayRaise .lcdInit, CauseOccurs .lcdInit c := by
  have hunmapped : CauseOccurs .lcdInit 18 := causeOccurs_of_check State.reset .notAcquired rfl rfl rfl
  have hbus : CauseOccurs .lcdInit 2 :=
    causeOccurs_of_check { mappedReset with cfg := { Cfg.deployment with lcdBits := 8 } } .unsupportedConfiguration
      rfl rfl rfl
  exact List.forall_mem_cons.2 ⟨hunmapped, List.forall_mem_singleton.2 hbus⟩

/-- WAIT_INPUT faults before ACQUIRE. -/
theorem causeOccurs_waitInput : ∀ c ∈ mayRaise .waitInput, CauseOccurs .waitInput c :=
  List.forall_mem_singleton.2 (causeOccurs_of_check State.reset .notAcquired rfl rfl rfl)

theorem causeOccurs_of_mem_mayRaise (i : Instr) : ∀ c ∈ mayRaise i, CauseOccurs i c := by
  cases i with
  | acquire => exact causeOccurs_acquire
  | release => simp [mayRaise]
  | setMode _ dir => exact causeOccurs_pinCommand (command := (.setMode · dir)) (fun _ => rfl) (fun _ _ => rfl)
  | write _ level => exact causeOccurs_pinCommand (command := (.write · level)) (fun _ => rfl) (fun _ _ => rfl)
  | read _ => exact causeOccurs_pinCommand (command := .read) (fun _ => rfl) (fun _ _ => rfl)
  | lcdInit => exact causeOccurs_lcdInit
  | lcdCmd _ | putChar _ | position _ _ | lcdClear | lcdDisplay _ | lcdCursor _ | lcdBlink _ =>
    exact causeOccurs_lcdCommand (fun _ => rfl)
  | waitInput => exact causeOccurs_waitInput
  | delay _ => simp [mayRaise]

/-! ### The statements -/

/-- Settles O6: the word fetched decodes to no command, and performing it is fault entry. -/
theorem reservedWordFaults : Obligations.ReservedWordFaults := by
  intro s w r hrun hd hw hr
  refine ⟨_, ?_, faultedWith_faultEntry_gap .illegalCommand hd⟩
  rw [step_reserved (fetch_running hrun hw) hr, reservedWord_running hrun]

/-- Settles O12: a step that ends faulted is fault entry after the gap, since no body faults. -/
theorem faultsArePrecise : Obligations.FaultsArePrecise := by
  intro s t hd h ht
  obtain ⟨f, rfl⟩ := step_ends_faulted h ht
  exact ⟨faultedWith_faultEntry_gap f hd, rfl⟩

/-- Settles O13: the fault entered is that of a check, the causes of the checks are the table's, and each check fails in some
state in which those before it do not. -/
theorem onlyTheListedFaults : Obligations.OnlyTheListedFaults := by
  refine ⟨fun i s t h ht => ?_, fun s t h => ?_, causeOccurs_of_mem_mayRaise⟩
  · obtain ⟨f, hf, rfl⟩ := exec_ends_faulted h ht
    exact faultCode_mem_mayRaise hf
  · obtain rfl := reservedWord_next h
    exact ⟨rfl, rfl⟩

end Sys2Proof.Machine

/-! SUPPORT. Reset, boot and runs (70_reset_and_hazards): what a reset leaves, the invariant along a run, that SET_MODEs of
different pins commute, how long each command lasts at least, and the boot sequence command by command. -/

namespace Sys2Proof.Machine

/-! ### Reset -/

/-- Reset writes every register R281 gives a value, so it is clean from any state. -/
theorem cleanReset_restart (stream : List Word) (s : State) : CleanReset (restart stream s) :=
  ⟨⟨rfl, rfl⟩, rfl, ⟨rfl, rfl⟩, rfl, rfl, rfl, rfl, rfl, rfl, rfl, rfl⟩

/-- The state right after reset is its own reset. -/
theorem restart_reset : restart [] State.reset = State.reset := rfl

/-- The deployment's configuration meets the constraints of 00_scope section 5 and R62. -/
theorem valid_deployment : Cfg.deployment.Valid where
  bits := rfl
  cols := by decide
  rows := by decide
  pins := by decide
  offsets := by decide
  aligned := by decide
  units := by decide
  scroll := by decide

/-- The home position is inside every valid geometry, and a clean reset has neither ended nor armed the timer. -/
theorem Inv.of_cleanReset {s : State} (hs : CleanReset s) (hc : s.cfg.Valid) : Inv s where
  cfg := hc
  cx := hs.cursor.1 ▸ hc.cols.1
  cy := hs.cursor.2 ▸ hc.rows.1
  timer := hs.timer.1
  lcdMode := .inl hs.lcdMode
  cause := iff_of_true hs.faultCause (by simp [hs.status])
  released _ := hs.acquired

/-- Settles O8: the state after reset is its own reset, and a reset is clean. -/
theorem resetIsClean : Obligations.ResetIsClean := by
  have hclean := cleanReset_restart [] State.reset
  rwa [restart_reset] at hclean

/-- Settles O9: reset writes the block's own registers and no other field. -/
theorem restartLeavesTheRegisterBlock : Obligations.RestartLeavesTheRegisterBlock :=
  fun s stream => ⟨cleanReset_restart stream s, rfl, rfl, rfl, rfl, rfl, rfl⟩

/-- Settles O10: a clean reset with a valid configuration meets the invariant, and the deployment's is valid. -/
theorem cleanResetHasInv : Obligations.CleanResetHasInv :=
  ⟨fun _ hs hc => .of_cleanReset hs hc, .of_cleanReset resetIsClean valid_deployment⟩

/-! ### Runs -/

/-- A step of the step relation is a step of the machine to the next state under the same parameters. -/
theorem step_of_stepUnder {c : Cfg} {stream : List Word} {a b : Block} (h : StepUnder c stream a b) :
    step (a.under c stream) = .next (b.under c stream) := by
  obtain ⟨t, hstep, rfl⟩ := StepUnder.step h
  obtain ⟨hstream, hcfg, -⟩ := step_parameters hstep
  rw [under_stream] at hstream
  rw [under_cfg] at hcfg
  rw [hstep, ← hstream, ← hcfg, toBlock_under]

/-- Settles O57: by induction along the run; a step keeps the invariant, and handing on words changes nothing it reads. -/
theorem runsKeepInv : Obligations.RunsKeepInv := by
  intro c stream run _ hinit hhost n
  induction n with
  | zero => exact ⟨hinit, List.prefix_rfl⟩
  | succ n ih =>
    obtain ⟨hinv, hgrows⟩ := ih
    obtain ⟨hstep, hstream⟩ | ⟨hrun, hmore⟩ := hhost n
    · rw [hstream]
      exact ⟨stepKeepsInv _ _ hinv (step_of_stepUnder hstep), hgrows⟩
    · rw [hrun]
      exact ⟨hinv.under _, hgrows.trans hmore⟩

/-! ### SET_MODEs of different pins -/

/-- The fields of two pins in one word do not overlap (R21). -/
theorem fselShift_apart {p q : Pin} (hword : fselWord q = fselWord p) (hne : q ≠ p) :
    fselShift q + 3 ≤ fselShift p ∨ fselShift p + 3 ≤ fselShift q := by
  have hval : q.val ≠ p.val := Fin.val_ne_of_ne hne
  simp only [fselWord, fselPerWord, Fin.mk.injEq] at hword
  simp only [fselShift, fselPerWord]
  omega

theorem setField_comm (w : Word) {p q : Pin} (a b : BitVec 3) (hword : fselWord q = fselWord p) (hne : q ≠ p) :
    setField (setField w p a) q b = setField (setField w q b) p a := by
  have hapart := fselShift_apart hword hne
  refine BitVec.eq_of_getLsbD_eq fun i hi => ?_
  simp only [setField_getLsbD _ _ _ hi]
  by_cases hp : fselShift p ≤ i ∧ i < fselShift p + 3
  · have hq : ¬ (fselShift q ≤ i ∧ i < fselShift q + 3) := by omega
    simp only [hp, hq, if_false]
  · simp only [hp, if_false]

/-- The function-select words after SET_MODE of `p`. -/
def withMode (f : Vector Word 6) (p : Pin) (dir : Direction) : Vector Word 6 :=
  f.set (fselWord p).val (setField f[(fselWord p).val] p (selectorOf dir))

/-- In one word the two fields do not overlap; two words are written apart. -/
theorem withMode_comm (f : Vector Word 6) {p q : Pin} (d e : Direction) (hne : p ≠ q) :
    withMode (withMode f p d) q e = withMode (withMode f q e) p d := by
  unfold withMode
  by_cases hword : fselWord q = fselWord p
  · simp only [hword, Vector.getElem_set_self, Vector.set_set]
    rw [setField_comm _ _ _ hword hne.symm]
  · have hpq : (fselWord p).val ≠ (fselWord q).val := fun h => hword (Fin.ext h.symm)
    rw [Vector.getElem_set_ne _ _ hpq, Vector.getElem_set_ne _ _ hpq.symm, Vector.set_comm _ _ hpq]

theorem exec_setMode_withMode {s t : State} {p : Pin} {dir : Direction} (hacq : s.acquired = true)
    (h : exec (.setMode p.val dir) s = .next t) : t.gpfsel = withMode s.gpfsel p dir :=
  exec_setMode_gpfsel hacq h

/-- SET_MODE of a valid pin leaves the block mapped. -/
theorem exec_setMode_acquired {s t : State} {p : Pin} {dir : Direction} (hacq : s.acquired = true)
    (h : exec (.setMode p.val dir) s = .next t) : t.acquired = true := by
  have ht : t = advance (setModeOn (pinOr0 p.val) dir (gap s)) := exec_pinCommand rfl hacq h
  rw [ht, setModeOn_eq]
  simpa using hacq

/-- A list of commands that ends in a next state performed its first and went on from there. -/
theorem execAll_cons_next {i : Instr} {is : List Instr} {s u : State} (h : execAll (i :: is) s = .next u) :
    ∃ t, exec i s = .next t ∧ execAll is t = .next u := by
  simp only [execAll] at h
  split at h
  · next t ht => exact ⟨t, ht, h⟩
  · cases h
  · cases h

theorem execAll_setModes_gpfsel {s u : State} {p q : Pin} {d e : Direction} (hacq : s.acquired = true)
    (h : execAll [.setMode p.val d, .setMode q.val e] s = .next u) :
    u.gpfsel = withMode (withMode s.gpfsel p d) q e := by
  obtain ⟨t, hp, hrest⟩ := execAll_cons_next h
  obtain ⟨v, hq, hend⟩ := execAll_cons_next hrest
  cases hend
  rw [exec_setMode_withMode (exec_setMode_acquired hacq hp) hq, exec_setMode_withMode hacq hp]

/-- Settles O26: each order replaces the two pins' fields, which do not overlap. -/
theorem setModesCommute : Obligations.SetModesCommute := by
  intro s t u p q d e hne hacq ht hu
  rw [execAll_setModes_gpfsel hacq ht, execAll_setModes_gpfsel hacq hu, withMode_comm _ _ _ hne]

/-! ### How long an operation lasts -/

/-- From `s` to `t` at least `d` ticks pass, under the same configuration. Of the registers nothing is said. -/
structure Lasts (d : Nat) (s t : State) : Prop where
  cfg : t.cfg = s.cfg
  now : s.now + d ≤ t.now

theorem Lasts.refl (s : State) : Lasts 0 s s := ⟨rfl, le_rfl⟩

theorem Lasts.then {d e : Nat} {s t u : State} (h : Lasts d s t) (g : Lasts e t u) : Lasts (d + e) s u where
  cfg := g.cfg.trans h.cfg
  now := by
    have hnow := h.now
    have gnow := g.now
    omega

theorem Lasts.of_le {d e : Nat} {s t : State} (h : Lasts d s t) (hle : e ≤ d) : Lasts e s t :=
  ⟨h.cfg, (Nat.add_le_add_left hle _).trans h.now⟩

theorem Lasts.advance {d : Nat} {s t : State} (h : Lasts d s t) : Lasts d s (advance t) := ⟨h.cfg, h.now⟩

/-- Setting the driver's own registers takes no time. -/
theorem Lasts.lcdRegisters {d : Nat} {s t : State} (h : Lasts d s t) (x y : Nat) (c : BitVec 3) (m : LcdMode) :
    Lasts d s { t with cx := x, cy := y, ctl := c, lcdMode := m } := ⟨h.cfg, h.now⟩

theorem Transmits.lasts {s t : State} {es : List Event} (h : Transmits s t es) : Lasts (delayTicks es) s t :=
  ⟨h.cfg_eq, h.now⟩

theorem lasts_gap (s : State) : Lasts 0 s (gap s) := ⟨gap_cfg s, gap_now s⟩

theorem delayTicks_nibbleEvents (c : Cfg) (n : Nibble) : delayTicks (nibbleEvents c n) = 0 := by
  simp [nibbleEvents]

theorem delayTicks_strobeEvents (c : Cfg) : delayTicks (strobeEvents c) = 100 * c.uStrobe := by
  simp only [strobeEvents, delayTicks_pinEvent, delayTicks]
  omega

theorem delayTicks_put4cmdEvents (c : Cfg) (n : Nibble) : delayTicks (put4cmdEvents c n) = 100 * c.uStrobe := by
  simp only [put4cmdEvents, List.cons_append, delayTicks_pinEvent, delayTicks_append, delayTicks_nibbleEvents,
    delayTicks_strobeEvents, Nat.zero_add]

theorem delayTicks_byteEvents (c : Cfg) (rs : Level) (b : Byte) : delayTicks (byteEvents c rs b) = 200 * c.uStrobe := by
  simp only [byteEvents, List.cons_append, delayTicks_pinEvent, delayTicks_append, delayTicks_nibbleEvents,
    delayTicks_strobeEvents]
  omega

theorem lasts_regWrite (r : WriteReq) (v : Word) (s : State) : Lasts 0 s (regWrite r v s) :=
  ⟨regWrite_cfg s r v, regWrite_now r v s⟩

theorem lasts_pinWrite (p : Pin) (l : Level) (s : State) : Lasts 0 s (pinWrite p l s) :=
  ⟨pinWrite_cfg s p l, pinWrite_now p l s⟩

theorem lasts_readOn (p : Pin) (s : State) : Lasts 0 s (readOn p s) := ⟨by simp [readOn], gap_now s⟩

theorem lasts_setModeOn (p : Pin) (dir : Direction) (s : State) : Lasts 0 s (setModeOn p dir s) := by
  have hread : Lasts 0 s (readNow (.gpfsel (fselWord p)) (gap s)) := ⟨gap_cfg s, gap_now s⟩
  rw [setModeOn_eq]
  exact hread.then (lasts_regWrite _ _ _)

theorem lasts_sendByte (rs : Level) (b : Byte) (s : State) : Lasts (200 * s.cfg.uStrobe) s (sendByte rs b s) :=
  delayTicks_byteEvents s.cfg rs b ▸ (transmits_sendByte rs b s).lasts

theorem lasts_put4cmd (n : Nibble) (s : State) : Lasts (100 * s.cfg.uStrobe) s (put4cmd n s) :=
  delayTicks_put4cmdEvents s.cfg n ▸ (transmits_put4cmd n s).lasts

theorem lasts_functionSet8 (s : State) :
    Lasts (100 * s.cfg.uStrobe + 35 * s.cfg.uSettle) s (functionSet8 s) := by
  have h := (transmits_functionSet8 s).lasts
  rwa [functionSetEvents, delayTicks_append, delayTicks_put4cmdEvents] at h

theorem lasts_setCtl (i : Nat) (v : Bool) (s : State) : Lasts (200 * s.cfg.uStrobe) s (setCtl i v s) := by
  have h := lasts_sendByte .low (ctlByte (setCtlBit s.ctl i v)) { s with ctl := setCtlBit s.ctl i v }
  exact ⟨h.cfg, h.now⟩

theorem lasts_clearOn (s : State) : Lasts (200 * s.cfg.uStrobe) s (clearOn s) :=
  (lasts_sendByte .low lcdClearCmd s).lcdRegisters 0 0 _ _

theorem lasts_positionOn (x y : Nat) (s : State) :
    Lasts (if x < s.cfg.lcdCols ∧ y < s.cfg.lcdRows then 200 * s.cfg.uStrobe else 0) s (positionOn x y s) := by
  unfold positionOn
  by_cases hgeo : x < s.cfg.lcdCols ∧ y < s.cfg.lcdRows
  · simpa [hgeo, inGeometry] using (lasts_sendByte .low (setAddress x y) s).lcdRegisters x y _ _
  · simpa [hgeo, inGeometry] using Lasts.refl s

theorem lasts_putCharOn (b : Byte) (s : State) :
    Lasts ((if s.cx + 1 = s.cfg.lcdCols then 400 else 200) * s.cfg.uStrobe) s (putCharOn b s) := by
  have hchar := (lasts_sendByte .high b s).lcdRegisters (nextCursor s.cfg s.cx s.cy).1 (nextCursor s.cfg s.cx s.cy).2
    (sendByte .high b s).ctl (sendByte .high b s).lcdMode
  unfold putCharOn
  by_cases hwrap : s.cx + 1 = s.cfg.lcdCols
  · have htwo := hchar.then (lasts_sendByte .low (setAddress (nextCursor s.cfg s.cx s.cy).1 (nextCursor s.cfg s.cx s.cy).2) _)
    simp only [sendByte_cfg, ← Nat.add_mul] at htwo
    simpa [hwrap] using htwo
  · simpa [hwrap] using hchar

/-! ### How long LCD_INIT lasts, stage by stage (R160) -/

theorem lasts_initCompat8 (s : State) :
    Lasts (300 * s.cfg.uStrobe + 105 * s.cfg.uSettle) s (initCompat8 s) := by
  have hstart := (Lasts.refl s).lcdRegisters s.cx s.cy s.ctl .uninit
  have hthree := ((hstart.then (lasts_functionSet8 _)).then (lasts_functionSet8 _)).then (lasts_functionSet8 _)
  simp only [functionSet8_cfg] at hthree
  exact (hthree.of_le (by omega)).lcdRegisters _ _ _ .compat8

theorem lasts_initActive4 (s : State) : Lasts (100 * s.cfg.uStrobe) s (initActive4 s) :=
  (lasts_put4cmd (highNibble lcdFunc) s).lcdRegisters _ _ _ .active4

theorem lasts_initLines (s : State) :
    Lasts ((if 1 < s.cfg.lcdRows then 200 else 0) * s.cfg.uStrobe) s (initLines s) := by
  unfold initLines
  split
  · exact lasts_sendByte .low _ s
  · exact (Lasts.refl s).of_le (by omega)

theorem lasts_initCtl (s : State) : Lasts (600 * s.cfg.uStrobe) s (initCtl s) := by
  have hstart := (Lasts.refl s).lcdRegisters s.cx s.cy 0 s.lcdMode
  have hthree := ((hstart.then (lasts_setCtl 2 true _)).then (lasts_setCtl 1 false _)).then (lasts_setCtl 0 false _)
  simp only [setCtl_cfg] at hthree
  exact hthree.of_le (by omega)

theorem lasts_initConfigured (s : State) :
    Lasts ((if 1 < s.cfg.lcdRows then 1400 else 1200) * s.cfg.uStrobe) s (initConfigured s) := by
  have hlines := lasts_initLines s
  have hctl := hlines.then (lasts_initCtl _)
  have hentry := (hctl.then (lasts_clearOn _)).then (lasts_sendByte .low (lcdEntry ||| lcdEntryId) _)
  have hall := hentry.then (lasts_sendByte .low (lcdCdShift ||| lcdCdShiftRl) _)
  simp only [sendByte_cfg, clearOn_cfg, hctl.cfg, hlines.cfg] at hall
  refine (hall.of_le ?_).lcdRegisters _ _ _ .configured
  split <;> omega

theorem lasts_init (s : State) :
    Lasts ((if 1 < s.cfg.lcdRows then 1800 else 1600) * s.cfg.uStrobe + 105 * s.cfg.uSettle) s
      (initConfigured (initActive4 (initCompat8 s))) := by
  have hcompat := lasts_initCompat8 s
  have hfour := hcompat.then (lasts_initActive4 _)
  have hall := hfour.then (lasts_initConfigured _)
  simp only [hfour.cfg, hcompat.cfg] at hall
  refine hall.of_le ?_
  split <;> omega

/-! ### How long a command lasts -/

/-- A wait ends by its expiry, and the deadline lies T_DEADLINE after the arming (R192, R193). -/
theorem lasts_waitOn (s : State) : Lasts (s.cfg.tDeadline * s.cfg.uDeadline) s (waitOn s) := by
  have hstart : (startWait s).timerFireAt = (gap s).now + s.cfg.tDeadline * s.cfg.uDeadline := by simp [startWait]
  obtain ⟨es, hpolls, hdisarmed, -⟩ := polls_waitLoop (waitFuel (startWait s)) (startWait s) rfl
  obtain ⟨hcfg, -⟩ := hpolls.rest
  have hdue : (startWait s).timerFireAt ≤ (waitLoop (waitFuel (startWait s)) (startWait s)).now := by
    obtain ⟨-, harmed, -⟩ | ⟨-, -, -, -, hdue⟩ := hpolls.timer
    · rw [hdisarmed] at harmed; cases harmed
    · exact hdue
  rw [waitOn_eq]
  refine ⟨hcfg.trans (gap_cfg s), ?_⟩
  have hgap := gap_now s
  change _ ≤ (waitLoop (waitFuel (startWait s)) (startWait s)).now
  omega

theorem lasts_bodyOf (i : Instr) (s : State) : Lasts (minDuration s.cfg s.cx i) s (bodyOf i s) := by
  cases i with
  | acquire => exact ⟨rfl, le_rfl⟩
  | release => exact ⟨rfl, le_rfl⟩
  | setMode pin dir => exact (lasts_setModeOn _ dir s).advance
  | write pin level => exact (lasts_pinWrite _ level s).advance
  | read pin => exact (lasts_readOn _ s).advance
  | lcdInit => exact (lasts_init s).advance
  | lcdCmd b => exact (lasts_sendByte .low b s).advance
  | putChar b => exact (lasts_putCharOn b s).advance
  | position x y => exact (lasts_positionOn x y s).advance
  | lcdClear => exact (lasts_clearOn s).advance
  | lcdDisplay on => exact (lasts_setCtl 2 on s).advance
  | lcdCursor on => exact (lasts_setCtl 1 on s).advance
  | lcdBlink on => exact (lasts_setCtl 0 on s).advance
  | waitInput => exact (lasts_waitOn s).advance
  | delay n => exact (transmits_delay (n * s.cfg.uHost) s).lasts.advance

/-- Settles O21: a command that does not fault is a gap and its body, and the body lasts as long as its delays and, in a wait, as
long as the deadline. -/
theorem minimumDurations : Obligations.MinimumDurations := by
  intro i s t h hok
  obtain ⟨-, ⟨f, -, rfl⟩ | ⟨-, rfl⟩⟩ := exec_cases h
  · exact absurd (faultEntry_status (gap s) f) hok
  · have hbody := lasts_bodyOf i (gap s)
    rw [gap_cfg, gap_cx] at hbody
    have hall := (lasts_gap s).then hbody
    rw [Nat.zero_add] at hall
    exact hall.now

/-! ### The boot sequence -/

/-- A command whose checks pass completes, with the registers of its completion. -/
theorem exec_completes {i : Instr} {s : State} (hrun : s.status = .running) (hpass : firstFault (checksOf i s) = none) :
    ∃ t, exec i s = .next t ∧ SameRegisters t (completed t s i) :=
  ⟨_, exec_passing hrun hpass, sameRegisters_of_eq ((registers_bodyOf i (gap s)).trans (registers_completed_gap _ s i))⟩

/-- The block runs and is mapped. -/
structure Mapped (s : State) : Prop where
  running : s.status = .running
  acquired : s.acquired = true

/-- SET_MODE of each pin to its direction, in order. -/
def setModes (modes : List (Pin × Direction)) : List Instr := modes.map fun m => .setMode m.1.val m.2

/-- Step 3 of the boot sequence: the known levels (R287). -/
def levelWrites (levels : List (Pin × Level)) : List Instr := levels.map fun pl => .write pl.1.val pl.2

/-- SET_MODEs of distinct pins on a mapped block complete; each pin has its direction, every other pin the one it had. -/
theorem execAll_setModes {s : State} (modes : List (Pin × Direction)) (hs : Mapped s) (hdistinct : (modes.map Prod.fst).Nodup) :
    ∃ t, execAll (setModes modes) s = .next t ∧ Mapped t ∧ t.cfg = s.cfg ∧ t.cp = s.cp + modes.length ∧
      (∀ m ∈ modes, field t m.1 = selectorOf m.2) ∧ ∀ q ∉ modes.map Prod.fst, field t q = field s q := by
  induction modes generalizing s with
  | nil => exact ⟨s, rfl, hs, rfl, rfl, by simp, fun _ _ => rfl⟩
  | cons m modes ih =>
    obtain ⟨p, dir⟩ := m
    obtain ⟨hp, hdistinct⟩ := List.nodup_cons.mp hdistinct
    have hpass : firstFault (checksOf (.setMode p.val dir) s) = none := firstFault_pinChecks p.isLt hs.acquired
    obtain ⟨u, hexec, hsame⟩ := exec_completes hs.running hpass
    obtain ⟨hown, hothers, -⟩ := setModePreservesNeighbours s u p dir hs.acquired hexec
    have hcfg : u.cfg = s.cfg := hsame.cfg
    have hcp : u.cp = s.cp + 1 := hsame.cp
    obtain ⟨t, hrest, ht, htcfg, htcp, hmodes, hfields⟩ :=
      ih ⟨hsame.status.trans hs.running, hsame.acquired.trans hs.acquired⟩ hdistinct
    refine ⟨t, (execAll_cons hexec).trans hrest, ht, htcfg.trans hcfg, ?_, ?_, fun q hq => ?_⟩
    · rw [htcp, hcp, List.length_cons]; omega
    · refine List.forall_mem_cons.mpr ⟨?_, hmodes⟩
      rw [hfields p hp, hown]
      cases dir <;> rfl
    · simp only [List.map_cons, List.mem_cons, not_or] at hq
      obtain ⟨hqp, hq⟩ := hq
      rw [hfields q hq, hothers q hqp]

/-- WRITEs on a mapped block complete and leave every direction. -/
theorem execAll_writes {s : State} (levels : List (Pin × Level)) (hs : Mapped s) :
    ∃ t, execAll (levelWrites levels) s = .next t ∧ Mapped t ∧ t.cfg = s.cfg ∧ t.cp = s.cp + levels.length ∧
      t.gpfsel = s.gpfsel := by
  induction levels generalizing s with
  | nil => exact ⟨s, rfl, hs, rfl, rfl, rfl⟩
  | cons l levels ih =>
    obtain ⟨p, level⟩ := l
    have hpass : firstFault (checksOf (.write p.val level) s) = none := firstFault_pinChecks p.isLt hs.acquired
    obtain ⟨u, hexec, hsame⟩ := exec_completes hs.running hpass
    have hcfg : u.cfg = s.cfg := hsame.cfg
    have hcp : u.cp = s.cp + 1 := hsame.cp
    have hgpfsel : u.gpfsel = s.gpfsel := hsame.gpfsel
    obtain ⟨t, hrest, ht, htcfg, htcp, htgpfsel⟩ := ih ⟨hsame.status.trans hs.running, hsame.acquired.trans hs.acquired⟩
    refine ⟨t, (execAll_cons hexec).trans hrest, ht, htcfg.trans hcfg, ?_, htgpfsel.trans hgpfsel⟩
    rw [htcp, hcp, List.length_cons]; omega

/-- ACQUIRE of a free block maps it (R130). -/
theorem exec_acquire {s : State} (hrun : s.status = .running) (hfree : s.acquired = false) (hhw : HwAvailable s) :
    ∃ t, exec .acquire s = .next t ∧ Mapped t ∧ t.cfg = s.cfg ∧ t.cp = s.cp + 1 := by
  have hpass : firstFault (checksOf .acquire s) = none := by
    rw [HwAvailable] at hhw
    simp [checksOf, firstFault, hfree, hhw]
  obtain ⟨t, hexec, hsame⟩ := exec_completes hrun hpass
  exact ⟨t, hexec, ⟨hsame.status.trans hrun, hsame.acquired⟩, hsame.cfg, hsame.cp⟩

/-- LCD_INIT on a mapped block of the supported width completes (R160). -/
theorem exec_lcdInit {s : State} (hs : Mapped s) (hbits : s.cfg.lcdBits = 4) :
    ∃ t, exec .lcdInit s = .next t ∧
      SameRegisters t (advance { s with cx := 0, cy := 0, ctl := 0b100, lcdMode := .configured }) :=
  exec_completes hs.running (by simp [checksOf, firstFault, hs.acquired, hbits])

/-- The directions of the nine pins (R287). -/
def bootDirections (c : Cfg) : List (Pin × Direction) :=
  [(c.pinLed1, .output), (c.pinLed2, .output), (c.pinButton, .input), (c.pinRs, .output), (c.pinStrb, .output),
    (c.pinD0, .output), (c.pinD1, .output), (c.pinD2, .output), (c.pinD3, .output)]

theorem bootSequence_eq (c : Cfg) (levels : List (Pin × Level)) :
    bootSequence c levels = .acquire :: (setModes (bootDirections c) ++ (levelWrites levels ++ [.lcdInit])) :=
  congrArg (Instr.acquire :: ·) (List.append_assoc _ _ _)

/-- The boot sequence's pins are the nine of the configuration in another order, so they are distinct. -/
theorem bootDirections_nodup {c : Cfg} (hc : c.Valid) : ((bootDirections c).map Prod.fst).Nodup := by
  have hled : [c.pinLed1, c.pinLed2, c.pinButton].Perm [c.pinButton, c.pinLed1, c.pinLed2] :=
    List.perm_append_comm (l₁ := [c.pinLed1, c.pinLed2])
  have hperm : ((bootDirections c).map Prod.fst).Perm c.pins := (hled.append_right _).trans List.perm_append_comm
  exact hperm.nodup_iff.mpr hc.pins

/-- Settles O58: ACQUIRE, nine SET_MODEs of distinct pins, WRITEs, which touch no direction, and LCD_INIT pass their checks. -/
theorem bootSequenceCompletes : Obligations.BootSequenceCompletes := by
  intro s levels hs hhw hc
  obtain ⟨a, hacquire, ha, hacfg, hacp⟩ := exec_acquire hs.status hs.acquired hhw
  obtain ⟨m, hmodes, hm, hmcfg, hmcp, hfields, -⟩ := execAll_setModes (bootDirections s.cfg) ha (bootDirections_nodup hc)
  obtain ⟨w, hwrites, hw, hwcfg, hwcp, hwgpfsel⟩ := execAll_writes levels hm
  have hcfg : w.cfg = s.cfg := hwcfg.trans (hmcfg.trans hacfg)
  obtain ⟨t, hinit, hsame⟩ := exec_lcdInit hw (by rw [hcfg]; exact hc.bits)
  have htcfg : t.cfg = s.cfg := hsame.cfg.trans hcfg
  have hcp : t.cp = 11 + levels.length := by
    have htcp : t.cp = w.cp + 1 := hsame.cp
    have hnine : (bootDirections s.cfg).length = 9 := rfl
    rw [htcp, hwcp, hmcp, hacp, hs.cp, hnine]; omega
  have hfield : ∀ p, field t p = field m p := fun p => field_congr (hsame.gpfsel.trans hwgpfsel) p
  simp only [bootDirections, List.forall_mem_cons] at hfields
  obtain ⟨hled1, hled2, hbutton, hrs, hstrb, hd0, hd1, hd2, hd3, -⟩ := hfields
  refine ⟨t, ?_, hsame.status.trans hw.running, hsame.acquired.trans hw.acquired, hsame.lcdMode, hsame.ctl, hsame.cx,
    hsame.cy, ?_, ?_, ?_, ?_, hcp⟩
  · rw [bootSequence_eq, execAll_cons hacquire, execAll_append hmodes, execAll_append hwrites, execAll_cons hinit]
    rfl
  · have hlcd : ∀ p ∈ s.cfg.pins.take 6, field m p = selOutput := by
      simp only [Cfg.pins, List.take_succ_cons, List.take_zero, List.forall_mem_cons]
      exact ⟨hrs, hstrb, hd0, hd1, hd2, hd3, List.forall_mem_nil _⟩
    exact fun p hp => (hfield p).trans (hlcd p (htcfg ▸ hp))
  · rw [hfield, htcfg]; exact hled1
  · rw [hfield, htcfg]; exact hled2
  · rw [hfield, htcfg]; exact hbutton

end Sys2Proof.Machine
